-- ==== Sys2Proof/Word.lean ====
section
/-! DEFINITION. The widths the spec fixes: a stream byte (R51), a 32-bit command word, CRC value or control register
(R25, R80), and a 64-bit operand register or host-window datum (R21, R61). -/

namespace Sys2Proof

/-- One byte of the stream (R51). -/
abbrev Byte := BitVec 8

/-- A 32-bit word: a command word (R80), the CRC register (R25), a CRC value. -/
abbrev Word := BitVec 32

/-- A 64-bit word: an operand register (R21), CURSOR (R27), SLEN (R28), a host-window datum (R61). -/
abbrev DWord := BitVec 64

end Sys2Proof
end

