-- ==== Sys2Proof/Syntax.lean ====
section
/-! DEFINITION. The command language: the fourteen commands of the opcode table (R84), and the six fields of a command
word before it is decoded (R81). -/

namespace Sys2Proof

/-- An operand register number: n names Pn and no value is special (R82). -/
abbrev Reg := Fin 8

/-- The fourteen commands, operands in the order of R84's assembler form. -/
inductive Instr where
  /-- R170: no operation. -/
  | nop
  /-- R103: start a byte-by-byte CRC. -/
  | crcinit
  /-- R104: fold one byte into CRCREG. -/
  | crcfold (rs1 : Reg)
  /-- R105: read out the checksum of the bytes folded so far. -/
  | crcfin (rd : Reg)
  /-- R106: checksum of the stream from CURSOR to its end. -/
  | crcstrm (rd : Reg)
  /-- R121: polynomial addition. -/
  | padd (rd rs1 rs2 : Reg)
  /-- R122: polynomial product modulo G. -/
  | mulmod (rd rs1 rs2 : Reg)
  /-- R124: polynomial power modulo G. -/
  | powmod (rd rs1 rs2 : Reg)
  /-- R126: polynomial quotient (rd) and remainder (rx). -/
  | divrem (rd rx rs1 rs2 : Reg)
  /-- R128: multiplicative inverse modulo G. -/
  | recip (rd rs1 : Reg)
  /-- R127: degree. -/
  | degree (rd rs1 : Reg)
  /-- R130: 32-bit bit reversal. -/
  | rev32 (rd rs1 : Reg)
  /-- R151: magic delta of register values; rx is a source. -/
  | delta (rd rs1 rs2 rx : Reg)
  /-- R153: magic delta of the attached stream; rx receives the resolved offset. -/
  | derive (rd rx rs1 rs2 : Reg)
  deriving DecidableEq, Repr

/-- A command word cut into the fields of R81, not yet checked: the term that R86 accepts or rejects. -/
structure RawCmd where
  op  : BitVec 8
  rd  : BitVec 3
  rs1 : BitVec 3
  rs2 : BitVec 3
  rx  : BitVec 3
  rsv : BitVec 12
  deriving DecidableEq, Repr

end Sys2Proof
end

