-- ==== Sys2Proof/WellFormed.lean ====
section
/-! DEFINITION. When a command word's fields spell a command: the checks of R86 steps 2 and 3, field by field, from the
"which fields each opcode uses" table of R85. The decoder (Decode.lean) is written from the masks of the same table; that
the two agree is a statement. A register number of an Instr is a Fin 8, so an Instr is well formed by construction. -/

namespace Sys2Proof

/-- R84: the assigned opcodes; the other 242 are reserved. -/
def RawCmd.assigned (c : RawCmd) : Bool :=
  [0x00, 0x10, 0x11, 0x12, 0x13, 0x20, 0x21, 0x22, 0x23, 0x24, 0x25, 0x26, 0x30, 0x31].contains c.op.toNat

/-- R85, column RD. -/
def RawCmd.usesRd (c : RawCmd) : Bool :=
  [0x12, 0x13, 0x20, 0x21, 0x22, 0x23, 0x24, 0x25, 0x26, 0x30, 0x31].contains c.op.toNat

/-- R85, column RS1. -/
def RawCmd.usesRs1 (c : RawCmd) : Bool :=
  [0x11, 0x20, 0x21, 0x22, 0x23, 0x24, 0x25, 0x26, 0x30, 0x31].contains c.op.toNat

/-- R85, column RS2. -/
def RawCmd.usesRs2 (c : RawCmd) : Bool :=
  [0x20, 0x21, 0x22, 0x23, 0x30, 0x31].contains c.op.toNat

/-- R85, column RX. -/
def RawCmd.usesRx (c : RawCmd) : Bool :=
  [0x23, 0x30, 0x31].contains c.op.toNat

/-- R85: RSV and every field the opcode does not use are 0. -/
def RawCmd.unusedZero (c : RawCmd) : Bool :=
  c.rsv == 0 && (c.usesRd || c.rd == 0) && (c.usesRs1 || c.rs1 == 0) && (c.usesRs2 || c.rs2 == 0) &&
    (c.usesRx || c.rx == 0)

/-- R86: steps 2 and 3 both let the word through. -/
def RawCmd.wellFormed (c : RawCmd) : Bool := c.assigned && c.unusedZero

/-- The fields R84 and R85 give a command: its opcode, its registers in their places, every other field 0. -/
def Instr.raw : Instr → RawCmd
  | .nop => ⟨0x00, 0, 0, 0, 0, 0⟩
  | .crcinit => ⟨0x10, 0, 0, 0, 0, 0⟩
  | .crcfold rs1 => ⟨0x11, 0, .ofFin rs1, 0, 0, 0⟩
  | .crcfin rd => ⟨0x12, .ofFin rd, 0, 0, 0, 0⟩
  | .crcstrm rd => ⟨0x13, .ofFin rd, 0, 0, 0, 0⟩
  | .padd rd rs1 rs2 => ⟨0x20, .ofFin rd, .ofFin rs1, .ofFin rs2, 0, 0⟩
  | .mulmod rd rs1 rs2 => ⟨0x21, .ofFin rd, .ofFin rs1, .ofFin rs2, 0, 0⟩
  | .powmod rd rs1 rs2 => ⟨0x22, .ofFin rd, .ofFin rs1, .ofFin rs2, 0, 0⟩
  | .divrem rd rx rs1 rs2 => ⟨0x23, .ofFin rd, .ofFin rs1, .ofFin rs2, .ofFin rx, 0⟩
  | .recip rd rs1 => ⟨0x24, .ofFin rd, .ofFin rs1, 0, 0, 0⟩
  | .degree rd rs1 => ⟨0x25, .ofFin rd, .ofFin rs1, 0, 0, 0⟩
  | .rev32 rd rs1 => ⟨0x26, .ofFin rd, .ofFin rs1, 0, 0, 0⟩
  | .delta rd rs1 rs2 rx => ⟨0x30, .ofFin rd, .ofFin rs1, .ofFin rs2, .ofFin rx, 0⟩
  | .derive rd rx rs1 rs2 => ⟨0x31, .ofFin rd, .ofFin rs1, .ofFin rs2, .ofFin rx, 0⟩

/-- A command is well formed when its fields are. -/
def Instr.wellFormed (i : Instr) : Bool := i.raw.wellFormed

end Sys2Proof
end

