-- ==== Sys2Proof/Decode.lean ====
section
/-! DEFINITION. The decoder of R86 steps 2 to 4, total on every 32-bit word and rejecting by name, written from the
match and mask columns of R85; after it the encoder of R88, and the opcode table's rows as data. -/

namespace Sys2Proof

/-- R86: why a word spells no command. Both are architected errors that the core records in STATUS (entry U10). -/
inductive DecodeError where
  /-- step 2: OP is not assigned. -/
  | illOpcode
  /-- step 3: RSV or a field the opcode does not use is not 0. -/
  | illReserved
  deriving DecidableEq, Repr

/-- R81: bits 7:0. -/
def opField (w : Word) : BitVec 8 := w.extractLsb' 0 8

/-- R81, R82: the register number in the three bits from bit lo up. -/
def regField (lo : Nat) (w : Word) : Reg := Fin.ofNat 8 (w.extractLsb' lo 3).toNat

/-- R81: bits 10:8. -/
def rdField (w : Word) : Reg := regField 8 w

/-- R81: bits 13:11. -/
def rs1Field (w : Word) : Reg := regField 11 w

/-- R81: bits 16:14. -/
def rs2Field (w : Word) : Reg := regField 14 w

/-- R81: bits 19:17. -/
def rxField (w : Word) : Reg := regField 17 w

/-- R81: a word cut into its fields. -/
def RawCmd.ofWord (w : Word) : RawCmd :=
  { op := opField w, rd := w.extractLsb' 8 3, rs1 := w.extractLsb' 11 3, rs2 := w.extractLsb' 14 3,
    rx := w.extractLsb' 17 3, rsv := w.extractLsb' 20 12 }

/-- R85: "a word w spells command c exactly when (w & mask_c) = match_c". -/
def spells (w mask mtch : Word) : Bool := w &&& mask == mtch

/-- R86 step 3: with OP known, a word that its row's mask does not match has a reserved or unused field that is not 0. -/
def decodeRow (w mask mtch : Word) (i : Instr) : Except DecodeError Instr :=
  if spells w mask mtch then .ok i else .error .illReserved

/-- R86 steps 2 to 4. -/
def decode (w : Word) : Except DecodeError Instr :=
  match (opField w).toNat with
  | 0x00 => decodeRow w 0xFFFFFFFF 0x00000000 .nop
  | 0x10 => decodeRow w 0xFFFFFFFF 0x00000010 .crcinit
  | 0x11 => decodeRow w 0xFFFFC7FF 0x00000011 (.crcfold (rs1Field w))
  | 0x12 => decodeRow w 0xFFFFF8FF 0x00000012 (.crcfin (rdField w))
  | 0x13 => decodeRow w 0xFFFFF8FF 0x00000013 (.crcstrm (rdField w))
  | 0x20 => decodeRow w 0xFFFE00FF 0x00000020 (.padd (rdField w) (rs1Field w) (rs2Field w))
  | 0x21 => decodeRow w 0xFFFE00FF 0x00000021 (.mulmod (rdField w) (rs1Field w) (rs2Field w))
  | 0x22 => decodeRow w 0xFFFE00FF 0x00000022 (.powmod (rdField w) (rs1Field w) (rs2Field w))
  | 0x23 => decodeRow w 0xFFF000FF 0x00000023 (.divrem (rdField w) (rxField w) (rs1Field w) (rs2Field w))
  | 0x24 => decodeRow w 0xFFFFC0FF 0x00000024 (.recip (rdField w) (rs1Field w))
  | 0x25 => decodeRow w 0xFFFFC0FF 0x00000025 (.degree (rdField w) (rs1Field w))
  | 0x26 => decodeRow w 0xFFFFC0FF 0x00000026 (.rev32 (rdField w) (rs1Field w))
  | 0x30 => decodeRow w 0xFFF000FF 0x00000030 (.delta (rdField w) (rs1Field w) (rs2Field w) (rxField w))
  | 0x31 => decodeRow w 0xFFF000FF 0x00000031 (.derive (rdField w) (rxField w) (rs1Field w) (rs2Field w))
  | _ => .error .illOpcode

/-- R88: enc(op, rd, rs1, rs2, rx) = op | rd << 8 | rs1 << 11 | rs2 << 14 | rx << 17. -/
def enc (op : BitVec 8) (rd rs1 rs2 rx : Reg) : Word :=
  op.setWidth 32 ||| (BitVec.ofNat 32 rd.val <<< 8) ||| (BitVec.ofNat 32 rs1.val <<< 11) |||
    (BitVec.ofNat 32 rs2.val <<< 14) ||| (BitVec.ofNat 32 rx.val <<< 17)

/-- R84: a command's opcode, which is also what STATUS.ERROP records when it fails (R183). -/
def Instr.opcode : Instr → BitVec 8
  | .nop => 0x00
  | .crcinit => 0x10
  | .crcfold _ => 0x11
  | .crcfin _ => 0x12
  | .crcstrm _ => 0x13
  | .padd _ _ _ => 0x20
  | .mulmod _ _ _ => 0x21
  | .powmod _ _ _ => 0x22
  | .divrem _ _ _ _ => 0x23
  | .recip _ _ => 0x24
  | .degree _ _ => 0x25
  | .rev32 _ _ => 0x26
  | .delta _ _ _ _ => 0x30
  | .derive _ _ _ _ => 0x31

/-- R85, R88: a command's word, every unused field 0. -/
def encode (i : Instr) : Word :=
  match i with
  | .nop => enc i.opcode 0 0 0 0
  | .crcinit => enc i.opcode 0 0 0 0
  | .crcfold rs1 => enc i.opcode 0 rs1 0 0
  | .crcfin rd => enc i.opcode rd 0 0 0
  | .crcstrm rd => enc i.opcode rd 0 0 0
  | .padd rd rs1 rs2 => enc i.opcode rd rs1 rs2 0
  | .mulmod rd rs1 rs2 => enc i.opcode rd rs1 rs2 0
  | .powmod rd rs1 rs2 => enc i.opcode rd rs1 rs2 0
  | .divrem rd rx rs1 rs2 => enc i.opcode rd rs1 rs2 rx
  | .recip rd rs1 => enc i.opcode rd rs1 0 0
  | .degree rd rs1 => enc i.opcode rd rs1 0 0
  | .rev32 rd rs1 => enc i.opcode rd rs1 0 0
  | .delta rd rs1 rs2 rx => enc i.opcode rd rs1 rs2 rx
  | .derive rd rx rs1 rs2 => enc i.opcode rd rs1 rs2 rx

/-- The instruction the decoder reads from a table row's bits. A command is one 32-bit word (R80), so the bits above
nbits, which are 0, fill it up to 32; a longer row does not exist. -/
def decodeTableWord (nbits w : Nat) : Option Instr :=
  if nbits ≤ 32 then (decode (BitVec.ofNat 32 (w % 2 ^ nbits))).toOption else none

end Sys2Proof
end

