-- ==== Sys2Proof/Machine/Poly.lean ====
section
/-! DEFINITION. GF(2) polynomials as R9 writes them: a natural number whose bit i is the coefficient of x^i, with no width
limit. The primitives of R10 to R12, the computations of the GF(2) commands without their register writes (R122 to R130),
and the magic delta of R150. -/

namespace Sys2Proof.Machine

/-- R2: the generator, degree 32 with its leading term. -/
def generator : Nat := 0x104C11DB7

/-- The number of bits of a: one more than its degree. -/
def bitLen (a : Nat) : Nat := if a = 0 then 0 else a.log2 + 1

/-- R10: deg(a), −1 for the zero polynomial. -/
def deg (a : Nat) : Int := if a = 0 then -1 else (a.log2 : Int)

/-- R9: a polynomial is reduced when it is below 2^32. -/
abbrev Reduced (a : Nat) : Prop := a < 2 ^ 32

/-- R10: the sum over the first n bits of b of the carry-less product. -/
def clmulTo (a b : Nat) : Nat → Nat
  | 0 => 0
  | n + 1 => clmulTo a b n ^^^ (if b.testBit n then a <<< n else 0)

/-- R10: the carry-less product, ⊕ over every i with b[i] = 1 of (a << i). -/
def clmul (a b : Nat) : Nat := clmulTo a b (bitLen b)

/-- R126: the division loop for i from n − 1 down to 0, with dy the divisor's degree, q the quotient so far and r the
remainder so far. -/
def divLoop (y dy : Nat) : Nat → Nat → Nat → Nat × Nat
  | 0, q, r => (q, r)
  | n + 1, q, r =>
    if r.testBit (n + dy) then divLoop y dy n (q ||| (1 <<< n)) (r ^^^ (y <<< n)) else divLoop y dy n q r

/-- R126: quotient and remainder of x by y ≠ 0. There are deg(x) − deg(y) + 1 steps, none when deg(x) < deg(y) (and none
when x = 0, which gives 0 and 0). -/
def divrem (x y : Nat) : Nat × Nat := divLoop y y.log2 (bitLen x - y.log2) 0 x

/-- R11: pdiv(a, m), for m ≠ 0. -/
def pdiv (a m : Nat) : Nat := (divrem a m).1

/-- R11: pmod(a, m), for m ≠ 0. -/
def pmod (a m : Nat) : Nat := (divrem a m).2

/-- R11: mulmod(a, b) = pmod(clmul(a, b), G). -/
def mulmod (a b : Nat) : Nat := pmod (clmul a b) generator

/-- R124: the pair (acc, base) after the first n exponent bits. -/
def powSteps (x y : Nat) : Nat → Nat × Nat
  | 0 => (1, pmod x generator)
  | n + 1 =>
    let s := powSteps x y n
    (if y.testBit n then mulmod s.1 s.2 else s.1, mulmod s.2 s.2)

/-- R124: x^y mod G over the 64 bits of the exponent. -/
def powmod (x y : Nat) : Nat := (powSteps x y 64).1

/-- R128: the loop, at most fuel times, giving the last u and a. -/
def euclid : Nat → Nat → Nat → Nat → Nat → Nat × Nat
  | 0, u, _, a, _ => (u, a)
  | fuel + 1, u, v, a, b =>
    if v = 0 then (u, a) else euclid fuel v (pmod u v) b (a ^^^ mulmod (pdiv u v) b)

/-- R128: more rounds than the loop can take ("it runs at most 34 times"). -/
def euclidFuel : Nat := 66

/-- R128: the inverse of x modulo G, none where "reciprocal does not exist". -/
def recip (x : Nat) : Option Nat :=
  let r := euclid euclidFuel generator x 0 1
  if r.1 = 1 then some r.2 else none

/-- R12: rev32(v)[i] = v[31 − i]. -/
def rev32 (v : Word) : Word := v.reverse

/-- R150: rawDelta = rev32(cur) ⊕ rev32(des), as a polynomial. -/
def rawDelta (cur des : Word) : Nat := (rev32 cur ^^^ rev32 des).toNat

/-- R150: magicOf(cur, des, tb). It is none only if 2^tb has no inverse modulo G, which R152 excludes. -/
def magicOf (cur des : Word) (tb : Nat) : Option Nat :=
  (recip (powmod 2 tb)).map fun inv => mulmod inv (rawDelta cur des)

/-- R150, R160: the patch word of a magic delta. -/
def patchWord (magic : Nat) : Word := rev32 (BitVec.ofNat 32 magic)

/-- R123: the source's loop, n rounds of it. -/
def mulmodLoopFrom : Nat → Nat → Nat → Nat → Nat
  | 0, _, _, z => z
  | n + 1, x, y, z =>
    let x2 := x <<< 1
    mulmodLoopFrom n (if x2.testBit 32 then x2 ^^^ generator else x2) (y >>> 1) (if y.testBit 0 then z ^^^ x else z)

/-- R123: the source's loop form of multiplyMod. Not what the hardware computes for an unreduced x (entry U16). -/
def mulmodLoop (x y : Nat) : Nat := mulmodLoopFrom (bitLen y) x y 0

/-- R125: the source's literal square-and-multiply over unbounded integers: (acc, base) after n exponent bits. -/
def powLoopSteps (x y : Nat) : Nat → Nat × Nat
  | 0 => (1, x)
  | n + 1 =>
    let s := powLoopSteps x y n
    (if y.testBit n then mulmodLoop s.1 s.2 else s.1, mulmodLoop s.2 s.2)

/-- R125: the source's literal powMod, with no first reduction of the base, "for each bit of the exponent". -/
def powmodLoop (x y : Nat) : Nat := (powLoopSteps x y (bitLen y)).1

end Sys2Proof.Machine
end

