-- ==== Sys2Proof/Machine/Engine.lean ====
section
/-! DEFINITION. The CRC-32 engine: one byte (R100), its table form (R101), the checksum of a byte sequence (R102), and the
polynomial of a message that R108 speaks of. -/

namespace Sys2Proof.Machine

/-- R2: the reflected generator constant REFPOLY. -/
def refPoly : Word := 0xEDB88320

/-- R2: the initial register INIT. -/
def crcInit : Word := 0xFFFFFFFF

/-- R2: the final complement XOROUT. -/
def crcXorOut : Word := 0xFFFFFFFF

/-- R100: one of the eight rounds. -/
def foldRound (r : Word) : Word := if r.getLsbD 0 then (r >>> 1) ^^^ refPoly else r >>> 1

/-- R100: n rounds. -/
def foldRounds : Nat → Word → Word
  | 0, r => r
  | n + 1, r => foldRounds n (foldRound r)

/-- R100: fold one byte, which enters unreflected (R107). -/
def fold8 (r : Word) (b : Byte) : Word := foldRounds 8 (r ^^^ b.setWidth 32)

/-- R101: the table of a table-driven engine, T[n] = fold8(0, n). A constant, not state (R34). -/
def crcTable (n : Byte) : Word := fold8 0 n

/-- R101: one byte by the table. -/
def fold8Table (r : Word) (b : Byte) : Word := (r >>> 8) ^^^ crcTable ((r ^^^ b.setWidth 32).setWidth 8)

/-- R102: crcreg(m), the register after a byte sequence. -/
def crcReg (m : List Byte) : Word := m.foldl fold8 crcInit

/-- R102: crc32(m). -/
def crc32 (m : List Byte) : Word := crcReg m ^^^ crcXorOut

/-- R108: message bit t in processing order, bit t mod 8 of byte t / 8. -/
def messageBit (m : List Byte) (t : Nat) : Bool := (m.getD (t / 8) 0).getLsbD (t % 8)

/-- R108: the sum over the first n message bits t that are set of x^(L − 1 − t). -/
def messagePolyTo (m : List Byte) (L : Nat) : Nat → Nat
  | 0 => 0
  | t + 1 => messagePolyTo m L t ^^^ (if messageBit m t then 1 <<< (L - 1 - t) else 0)

/-- R108: M(x) for a sequence of L = 8n bits. -/
def messagePoly (m : List Byte) : Nat := messagePolyTo m (8 * m.length) (8 * m.length)

end Sys2Proof.Machine
end

