-- ==== Sys2Proof/Config.lean ====
section
/-! DEFINITION. What a platform fixes (the two OPEN parameters of R7: STREAM_CAP and STREAM_PORT_FAULT) and the free
values of the model. The parameters are plain data, so that every claim is for every platform and a test can choose one;
State carries them and no step changes them (log entry 4). -/

namespace Sys2Proof

/-- The two kinds of stream-port access that STREAM_PORT_FAULT tells apart (R7, R58). -/
inductive PortKind where
  | read
  | write
  deriving DecidableEq, Repr

/-- The OPEN parameters of R7. STREAM_PORT_FAULT is written as the regions on which an access of its kind answers an
error, each region a half-open range of byte addresses. The stream space is finite (R50), so every total predicate on
it is such a list. -/
structure Config where
  /-- STREAM_CAP, the capacity of the stream space in bytes (R7, R50). -/
  streamCap   : Nat
  /-- The regions (first, one past the last) where a byte read answers an error response (R58). -/
  readFaults  : List (Nat × Nat)
  /-- The regions (first, one past the last) where a byte write answers an error response (R58). -/
  writeFaults : List (Nat × Nat)
  deriving DecidableEq, Repr

/-- R7: 4 ≤ STREAM_CAP ≤ 2^60. -/
abbrev Config.wf (c : Config) : Prop := 4 ≤ c.streamCap ∧ c.streamCap ≤ 2 ^ 60

/-- FREE VALUE. What a stream-space byte holds that nothing has written since power-on: reset does not change stream
memory and the spec gives it no contents (R213, entry U8). One byte per address, so that a repeated read gives the same
byte (R59). Log entry 3. -/
opaque Config.powerOnByte : Nat → Byte

/-- FREE VALUE. The n-th draw of a byte the spec lets take any value: the four bytes of an append write that faulted
(R54, R155, entry U2) or that reset cut short (R212, entry U7). State.draws counts the draws. Log entry 5. -/
opaque Config.freeByte : Nat → Byte

end Sys2Proof
end

