-- ==== Sys2Proof/Machine/State.lean ====
section
/-! DEFINITION. The state of the core (R20) and what surrounds it: the stream space, the host's pending actions, and what
the host has been answered. All of it is plain data. -/

namespace Sys2Proof.Machine

/-- R181: the error kinds. -/
inductive ErrKind where
  | precondition
  | arithmetic
  | io
  | illegal
  deriving DecidableEq, Repr

/-- R182: the thirteen causes. -/
inductive Cause where
  | preNull
  | preEmpty
  | preOffset
  | ariDiv0
  | ariNorecip
  | ioNoread
  | ioNowrite
  | ioNoseek
  | ioCapacity
  | ioRange
  | ioPort
  | illOpcode
  | illReserved
  deriving DecidableEq, Repr

/-- R30: the fields of STATUS that are stored. BUSY is not stored twice: it is State.inFlight seen as a bit (R35). CLR and
the reserved bits read 0 and hold nothing (entry U9). -/
structure Status where
  /-- bit 1: a command was skipped. -/
  skip  : Bool
  /-- bits 7:4: the kind of the first failed command. -/
  err   : BitVec 4
  /-- bits 15:8: its cause code. -/
  cause : BitVec 8
  /-- bits 23:16: bits 7:0 of its word. -/
  errop : BitVec 8
  deriving DecidableEq, Repr

/-- R29: the four stored bits of SCAP; bits 31:4 read as zero and are never written. -/
structure Scap where
  /-- bit 0: a stream is attached. -/
  present : Bool
  /-- bit 1: the stream supports reading. -/
  read    : Bool
  /-- bit 2: the stream supports writing and length extension. -/
  write   : Bool
  /-- bit 3: the stream supports repositioning. -/
  seek    : Bool
  deriving DecidableEq, Repr

/-- The stream space's bytes that something has written, as (address, byte) pairs, addresses strictly rising. An address
not listed has no byte of its own here; the port then gives Config.powerOnByte (log entry 3). -/
abbrev Memory := List Host.Cell

/-- R164: a magic delta a DERIVE has left and the stream it is good for: the resolved offset and the patch word. -/
structure Derivation where
  /-- The resolved offset, the value left in Prx. -/
  ro   : DWord
  /-- The patch word, rev32 of the magic delta (R160). -/
  word : Word
  deriving DecidableEq, Repr

/-- What can happen at the core's boundary: the host's actions H1 to H7 of R173, and the passage of time. -/
inductive Input where
  /-- H1, H2: read the window at an offset (R60). -/
  | windowRead (off : BitVec 8)
  /-- H3, H4, H5: write the window at an offset (R60). -/
  | windowWrite (off : BitVec 8) (wdata : BitVec 64)
  /-- H6: the host reads a byte of its own stream memory. -/
  | streamRead (addr : BitVec 64)
  /-- H6: the host writes a byte of its own stream memory. -/
  | streamWrite (addr : BitVec 64) (b : BitVec 8)
  /-- H6: the host patches its stream with a DERIVE's patch word, four bytes in one store (R160). It has a move only while the
  stream is as that DERIVE left it (R164, R175; log entry 10). -/
  | patch (ro : BitVec 64) (w : BitVec 32)
  /-- H7: the reset input is asserted (R210). -/
  | assertReset
  /-- H7: the reset input is released (R210). -/
  | releaseReset
  /-- Time passes: the command in flight, if there is one, completes (R35; log entry 7). -/
  | elapse
  deriving DecidableEq, Repr

/-- What the host gets back from a read (R173, H1, H2 and H6). -/
inductive Reply where
  | window (off : BitVec 8) (value : BitVec 64)
  | stream (addr : BitVec 64) (value : BitVec 8)
  deriving DecidableEq, Repr

/-- The machine's state. -/
structure State where
  /-- P0 .. P7 (R21). -/
  p           : Vector DWord 8
  /-- The CRC engine's running register (R25). -/
  crcreg      : Word
  /-- The stream position CRCSTRM reads from (R27). -/
  cursor      : DWord
  /-- The stream's length in bytes (R28). -/
  slen        : DWord
  /-- The attached stream's capabilities (R29). -/
  scap        : Scap
  /-- STATUS, less BUSY (R30). -/
  status      : Status
  /-- The command in flight, R20's BUSY-command: STATUS.BUSY is 1 exactly while there is one (R35). -/
  inFlight    : Option Word
  /-- The reset input is asserted (R210). -/
  resetHeld   : Bool
  /-- The stream space (R50, R51). -/
  stream      : Memory
  /-- MODEL'S OWN. The platform's parameters (R7); no step changes them. -/
  cfg         : Config
  /-- MODEL'S OWN. Which operand registers the host or a command has written since reset (R23, R176 L-written). -/
  written     : Vector Bool 8
  /-- MODEL'S OWN. The mark of R23 and entry U1: an operand register was read that nothing had written since reset. -/
  uninitRead  : Bool
  /-- MODEL'S OWN. How many bytes have been drawn from Config.freeByte. -/
  draws       : Nat
  /-- MODEL'S OWN. The magic deltas that are good for the stream as it stands (R164, log entry 10), latest first. -/
  derivations : List Derivation
  /-- MODEL'S OWN. A command word has been written to CMD since reset (R176 L-reset). -/
  commanded   : Bool
  /-- MODEL'S OWN. What has yet to happen at the boundary, first to come first (R173). -/
  inputs      : List Input
  /-- MODEL'S OWN. What the host has been answered, latest first (R173). -/
  replies     : List Reply
  deriving DecidableEq, Repr

/-- Why the machine stops. -/
inductive Fault where
  /-- Raised by a host action on its own stream memory (H6 of R173) at an address at or above STREAM_CAP, which R50 says
  the stream space does not have. No command raises it. Safe: the model stops. -/
  | outsideStreamSpace
  deriving DecidableEq, Repr

/-- Why the model gives an instruction no meaning. -/
inductive Refusal where
  /-- Raised by an arm of exec that has no meaning yet; no arm of this model raises it. Safe: the model stops. -/
  | notModelled (mnemonic : String)
  /-- Raised by the host's patch of R160 with a patch word and offset that no DERIVE has left for the stream as it stands:
  the host has broken duty D-b of R173, and R175 gives that no move. No command raises it. Safe: the model stops. -/
  | staleMagic
  deriving DecidableEq, Repr

/-- The machine right after reset is released (R211), with nothing written to the stream space (R213). P0 .. P7 are
unspecified there and hold 0 here (DESIGN CHOICE, unsafe, log entry 1); the platform has the largest stream space R7 allows
and no port faults (DESIGN CHOICE, log entry 4); draws starts at 0 (DESIGN CHOICE, log entry 5); no magic delta is good and no
command has been written (log entries 10 and 22). -/
def State.reset : State where
  p           := #v[0, 0, 0, 0, 0, 0, 0, 0]
  crcreg      := 0xFFFFFFFF
  cursor      := 0
  slen        := 0
  scap        := ⟨false, false, false, false⟩
  status      := ⟨false, 0, 0, 0⟩
  inFlight    := none
  resetHeld   := false
  stream      := []
  cfg         := { streamCap := 2 ^ 60, readFaults := [], writeFaults := [] }
  written     := #v[false, false, false, false, false, false, false, false]
  uninitRead  := false
  draws       := 0
  derivations := []
  commanded   := false
  inputs      := []
  replies     := []

end Sys2Proof.Machine
end

