-- ==== Sys2Proof/Machine/Flags.lean ====
section
/-! DEFINITION. STATUS, the core's whole flag state (R30): the codes an error records (R181, R182), the word the host reads
(R30) and what its write does (R31); and SCAP as a word (R29). -/

namespace Sys2Proof.Machine

/-- R181: STATUS.ERR of each kind. -/
def ErrKind.code : ErrKind → BitVec 4
  | .precondition => 1
  | .arithmetic => 2
  | .io => 3
  | .illegal => 4

/-- R182, column "kind". -/
def Cause.kind : Cause → ErrKind
  | .preNull => .precondition
  | .preEmpty => .precondition
  | .preOffset => .precondition
  | .ariDiv0 => .arithmetic
  | .ariNorecip => .arithmetic
  | .ioNoread => .io
  | .ioNowrite => .io
  | .ioNoseek => .io
  | .ioCapacity => .io
  | .ioRange => .io
  | .ioPort => .io
  | .illOpcode => .illegal
  | .illReserved => .illegal

/-- R182: STATUS.CAUSE of each cause. -/
def Cause.code : Cause → BitVec 8
  | .preNull => 0x11
  | .preEmpty => 0x12
  | .preOffset => 0x13
  | .ariDiv0 => 0x21
  | .ariNorecip => 0x22
  | .ioNoread => 0x31
  | .ioNowrite => 0x32
  | .ioNoseek => 0x33
  | .ioCapacity => 0x34
  | .ioRange => 0x35
  | .ioPort => 0x36
  | .illOpcode => 0x41
  | .illReserved => 0x42

/-- R30: STATUS as the host reads it, ERROP << 16 | CAUSE << 8 | ERR << 4 | SKIP << 1 | BUSY; CLR and the reserved bits
read 0. -/
def Status.word (st : Status) (busy : Bool) : Word :=
  (st.errop.setWidth 32 <<< 16) ||| (st.cause.setWidth 32 <<< 8) ||| (st.err.setWidth 32 <<< 4) |||
    ((BitVec.ofBool st.skip).setWidth 32 <<< 1) ||| (BitVec.ofBool busy).setWidth 32

/-- R183 step 2: the first failed command's kind, cause and opcode byte; SKIP is unchanged. -/
def Status.record (st : Status) (op : BitVec 8) (c : Cause) : Status :=
  { skip := st.skip, err := c.kind.code, cause := c.code, errop := op }

/-- R184: a command was skipped; ERR, CAUSE and ERROP keep the first error. -/
def Status.skipped (st : Status) : Status := { st with skip := true }

/-- R31, R185: ERR, CAUSE, ERROP and SKIP cleared. -/
def Status.clear : Status := { skip := false, err := 0, cause := 0, errop := 0 }

/-- R31: a host write to STATUS, whose bit 2 is CLR. -/
def Status.hostWrite (st : Status) (wdata : DWord) : Status := if wdata.getLsbD 2 then Status.clear else st

/-- R29: SCAP as the host reads it; bits 31:4 read as zero. -/
def Scap.word (c : Scap) : Word :=
  (BitVec.ofBool c.present).setWidth 32 ||| ((BitVec.ofBool c.read).setWidth 32 <<< 1) |||
    ((BitVec.ofBool c.write).setWidth 32 <<< 2) ||| ((BitVec.ofBool c.seek).setWidth 32 <<< 3)

/-- R29: what a host write to SCAP stores; bits 31:4 are ignored. -/
def Scap.ofWord (w : Word) : Scap :=
  { present := w.getLsbD 0, read := w.getLsbD 1, write := w.getLsbD 2, seek := w.getLsbD 3 }

end Sys2Proof.Machine
end

