-- ==== Sys2Proof/Machine/Operands.lean ====
section
/-! DEFINITION. The operand forms of R83: how a command reads a source register, and how a result goes into a 64-bit
register (R22). Commands carry no immediates. -/

namespace Sys2Proof

/-- R22: the registers a command reads, named by RS1 and RS2, and by RX for DELTA. -/
def Instr.sources : Instr → List Reg
  | .nop => []
  | .crcinit => []
  | .crcfold rs1 => [rs1]
  | .crcfin _ => []
  | .crcstrm _ => []
  | .padd _ rs1 rs2 => [rs1, rs2]
  | .mulmod _ rs1 rs2 => [rs1, rs2]
  | .powmod _ rs1 rs2 => [rs1, rs2]
  | .divrem _ _ rs1 rs2 => [rs1, rs2]
  | .recip _ rs1 => [rs1]
  | .degree _ rs1 => [rs1]
  | .rev32 _ rs1 => [rs1]
  | .delta _ rs1 rs2 rx => [rs1, rs2, rx]
  | .derive _ _ rs1 rs2 => [rs1, rs2]

end Sys2Proof

namespace Sys2Proof.Machine

/-- R14: P[i]. No register is hard-wired (R21). -/
def State.readP (s : State) (r : Reg) : DWord := s.p[r.val]

/-- R83: a 64-bit polynomial (PADD, MULMOD, POWMOD base, DIVREM, RECIP, DEGREE). -/
def State.polyOperand (s : State) (r : Reg) : Nat := (s.readP r).toNat

/-- R83: a 64-bit unsigned count (POWMOD exponent, DELTA tail bits). -/
def State.countOperand (s : State) (r : Reg) : Nat := (s.readP r).toNat

/-- R83: a 32-bit CRC value, bits 63:32 ignored (DELTA, DERIVE desired CRC, REV32). -/
def State.crcOperand (s : State) (r : Reg) : Word := (s.readP r).setWidth 32

/-- R83: a byte, bits 63:8 ignored (CRCFOLD). -/
def State.byteOperand (s : State) (r : Reg) : Byte := (s.readP r).setWidth 8

/-- R83, R13: a signed 64-bit offset, sint64 (DERIVE). -/
def State.offsetOperand (s : State) (r : Reg) : Int := (s.readP r).toInt

/-- A polynomial or count result as the 64-bit value written. -/
def polyResult (v : Nat) : DWord := BitVec.ofNat 64 v

/-- R22: a 32-bit result, zero-extended. -/
def wordResult (w : Word) : DWord := w.setWidth 64

/-- R127: a degree as 64-bit two's complement, so that −1 is all ones. -/
def signedResult (v : Int) : DWord := BitVec.ofInt 64 v

end Sys2Proof.Machine
end

