-- ==== Sys2Proof/Machine/Ops.lean ====
section
/-! DEFINITION. The named operations the commands and the host window share: field updates, register writes, the stream
space, the stream port (R53, R54), raising an error and clearing it (R183 to R185), offset resolution (R154). -/

namespace Sys2Proof.Machine

/-! Field updates. -/

def State.setCrcreg (s : State) (w : Word) : State := { s with crcreg := w }
def State.setCursor (s : State) (v : DWord) : State := { s with cursor := v }
def State.setSlen (s : State) (v : DWord) : State := { s with slen := v }
def State.setScap (s : State) (c : Scap) : State := { s with scap := c }
def State.setStatus (s : State) (st : Status) : State := { s with status := st }
def State.setInFlight (s : State) (w : Option Word) : State := { s with inFlight := w }
def State.setResetHeld (s : State) (b : Bool) : State := { s with resetHeld := b }
def State.setStream (s : State) (m : Memory) : State := { s with stream := m }
def State.setDraws (s : State) (n : Nat) : State := { s with draws := n }
def State.setDerivations (s : State) (l : List Derivation) : State := { s with derivations := l }
def State.setCommanded (s : State) (b : Bool) : State := { s with commanded := b }
def State.setInputs (s : State) (l : List Input) : State := { s with inputs := l }

/-- R173: the host is answered. -/
def State.reply (s : State) (r : Reply) : State := { s with replies := r :: s.replies }

/-- R14: P[i] <- v. The register then counts as written (R23). -/
def State.writeP (s : State) (r : Reg) (v : DWord) : State :=
  { s with p := s.p.set r.val v r.isLt, written := s.written.set r.val true r.isLt }

/-- R23, entry U1: a read of registers that nothing has written since reset marks the state, for good. The read itself
goes on with the register's reset value (log entry 1). -/
def State.noteReads (s : State) (rs : List Reg) : State :=
  { s with uninitRead := s.uninitRead || rs.any fun r => !s.written[r.val] }

/-! The stream space. -/

/-- The byte listed at an address. -/
def Memory.lookup : Memory → Nat → Option Byte
  | [], _ => none
  | (a', b) :: m, a => if a = a' then some b else Memory.lookup m a

/-- Write one byte, keeping the addresses strictly rising. -/
def Memory.write : Memory → Nat → Byte → Memory
  | [], a, b => [(a, b)]
  | (a', b') :: m, a, b =>
    if a < a' then (a, b) :: (a', b') :: m
    else if a = a' then (a, b) :: m
    else (a', b') :: Memory.write m a b

/-- Write bytes at consecutive addresses, the first at a. -/
def Memory.writeBytes : Memory → Nat → List Byte → Memory
  | m, _, [] => m
  | m, a, b :: bs => Memory.writeBytes (Memory.write m a b) (a + 1) bs

/-- The canonical form: addresses strictly rising. An unlisted address has no byte in the list, so no entry can equal what
it reads as there. -/
abbrev Memory.wf (m : Memory) : Prop := m.Pairwise fun x y => x.1 < y.1

/-- The byte at a stream-space address (R51): the one written last, else the power-on byte (R213, log entry 3). -/
def State.streamByte (s : State) (a : Nat) : Byte := (s.stream.lookup a).getD (Config.powerOnByte a)

/-- The n bytes from address a up. -/
def State.streamBytes (s : State) : Nat → Nat → List Byte
  | _, 0 => []
  | a, n + 1 => s.streamByte a :: s.streamBytes (a + 1) n

/-- The stream itself, STREAM[0 .. SLEN-1] (R51). -/
def State.streamContents (s : State) : List Byte := s.streamBytes 0 s.slen.toNat

/-! The stream port. -/

/-- R7, R58: STREAM_PORT_FAULT(kind, addr). -/
def portFault (c : Config) (k : PortKind) (a : Nat) : Bool :=
  match k with
  | .read => c.readFaults.any fun r => r.1 ≤ a && a < r.2
  | .write => c.writeFaults.any fun r => r.1 ≤ a && a < r.2

/-- R53: MemRead(a, 1); none is Error(IO, IO_PORT). -/
def State.memRead (s : State) (a : Nat) : Option Byte :=
  if portFault s.cfg .read a then none else some (s.streamByte a)

/-- R106, R153: fold the n bytes from address a up into r, in rising address order, each read once; none at the first
read that faults. -/
def State.foldStream (s : State) : Nat → Nat → Word → Option Word
  | 0, _, r => some r
  | n + 1, a, r =>
    match s.memRead a with
    | none => none
    | some b => s.foldStream n (a + 1) (fold8 r b)

/-- R54: the append burst faults if a write of any of its four bytes does. -/
def appendFaults (c : Config) (a : Nat) : Bool :=
  portFault c .write a || portFault c .write (a + 1) || portFault c .write (a + 2) || portFault c .write (a + 3)

/-- The four bytes of a burst that may hold anything (R54, R212): four draws. -/
def anyFourBytes (n : Nat) : List Byte :=
  [Config.freeByte n, Config.freeByte (n + 1), Config.freeByte (n + 2), Config.freeByte (n + 3)]

/-- R54, R155: MemWrite(SLEN, 4, 0) and SLEN <- SLEN + 4, or the state that a faulting burst leaves (error): SLEN
unchanged and the four bytes any values (entry U2). -/
def State.appendZeros (s : State) : Except State State :=
  let L := s.slen.toNat
  if appendFaults s.cfg L then
    .error ((s.setStream (s.stream.writeBytes L (anyFourBytes s.draws))).setDraws (s.draws + 4))
  else
    .ok ((s.setStream (s.stream.writeBytes L [0, 0, 0, 0])).setSlen (BitVec.ofNat 64 (L + 4)))

/-! What a magic delta is good for (R164). -/

/-- R164: no magic delta is good any more, since the stream has changed or is about to. -/
def State.forgetDerivations (s : State) : State := s.setDerivations []

/-- R164: a DERIVE in append mode is issued, so no earlier magic delta is good any more; one in place changes nothing. -/
def State.issueDerive (s : State) (off : Int) : State := if off = -1 then s.forgetDerivations else s

/-- R164: a DERIVE has left a magic delta, good for the stream as it stands. -/
def State.noteDerivation (s : State) (d : Derivation) : State := s.setDerivations (d :: s.derivations)

/-! Errors. -/

/-- R183: raise Error(kind, cause), the core's only exception entry, for a command whose opcode byte is op. The command
ends, STATUS records the error and nothing else changes: no vector, no mode, no saved state. BUSY has fallen already,
since a command is taken out of flight as it completes (Machine/Issue.lean). -/
def State.raise (s : State) (op : BitVec 8) (c : Cause) : State := s.setStatus (s.status.record op c)

/-- R184: a command that is skipped because an error is recorded. -/
def State.skipCommand (s : State) : State := s.setStatus s.status.skipped

/-- R185: the return from an error, a host write of STATUS.CLR. There is no state to restore. -/
def State.clearError (s : State) : State := s.setStatus Status.clear

/-! Offsets. -/

/-- R154: the two modes of a derivation; in place carries the resolved offset. -/
inductive OffsetMode where
  | append
  | inPlace (ro : Nat)
  deriving DecidableEq, Repr

/-- R154: resolveOffset(off, L), for L ≥ 1; none is PRE_OFFSET. -/
def resolveOffset (off : Int) (L : Nat) : Option OffsetMode :=
  if off = -1 then some .append
  else if 0 ≤ off ∧ off ≤ (L : Int) - 4 then some (.inPlace off.toNat)
  else if -(L : Int) ≤ off ∧ off ≤ -4 then some (.inPlace ((L : Int) + off).toNat)
  else none

end Sys2Proof.Machine
end

