-- ==== Sys2Proof/Machine/Crc.lean ====
section
/-! DEFINITION. The CRC-32 engine's four commands (R103 to R106). -/

namespace Sys2Proof.Machine

/-- R103: CRCINIT. -/
def execCrcinit (s : State) : Host.Outcome State Fault Refusal := .next (s.setCrcreg crcInit)

/-- R104: CRCFOLD rs1. -/
def execCrcfold (rs1 : Reg) (s : State) : Host.Outcome State Fault Refusal :=
  .next ((s.noteReads [rs1]).setCrcreg (fold8 s.crcreg (s.byteOperand rs1)))

/-- R105: CRCFIN rd. -/
def execCrcfin (rd : Reg) (s : State) : Host.Outcome State Fault Refusal :=
  .next (s.writeP rd (wordResult (s.crcreg ^^^ crcXorOut)))

/-- R106: the checks of CRCSTRM, in the order of its pseudocode. -/
def crcstrmCheck (s : State) : Except Cause Unit :=
  if s.scap.present = false then .error .preNull
  else if s.cfg.streamCap < s.slen.toNat then .error .ioRange
  else if s.scap.read = false then .error .ioNoread
  else .ok ()

/-- R106: CRCSTRM rd. -/
def execCrcstrm (rd : Reg) (s : State) : Host.Outcome State Fault Refusal :=
  match crcstrmCheck s with
  | .error c => .next (s.raise (Instr.crcstrm rd).opcode c)
  | .ok _ =>
    match s.foldStream (s.slen.toNat - s.cursor.toNat) s.cursor.toNat crcInit with
    | none => .next (s.raise (Instr.crcstrm rd).opcode .ioPort)
    | some r =>
      .next (((s.setCrcreg r).writeP rd (wordResult (r ^^^ crcXorOut))).setCursor
        (if s.cursor < s.slen then s.slen else s.cursor))

end Sys2Proof.Machine
end

