-- ==== Sys2Proof/Machine/Derive.lean ====
section
/-! DEFINITION. The magic-delta deriver's two commands (R151, R153). -/

namespace Sys2Proof.Machine

/-- R151: DELTA rd, rs1, rs2, rx. The first case cannot occur (R152); the source keeps it as an ARITHMETIC failure. -/
def execDelta (rd rs1 rs2 rx : Reg) (s : State) : Host.Outcome State Fault Refusal :=
  match magicOf (s.crcOperand rs1) (s.crcOperand rs2) (s.countOperand rx) with
  | none => .next ((s.noteReads [rs1, rs2, rx]).raise (Instr.delta rd rs1 rs2 rx).opcode .ariNorecip)
  | some m => .next ((s.noteReads [rs1, rs2, rx]).writeP rd (polyResult m))

/-- R153, R154: DERIVE's precondition and capability checks, in the order of its pseudocode, up to the append write. -/
def deriveCheck (off : Int) (s : State) : Except Cause OffsetMode :=
  if s.scap.present = false then .error .preNull
  else if s.slen.toNat = 0 then .error .preEmpty
  else
    match resolveOffset off s.slen.toNat with
    | none => .error .preOffset
    | some mode =>
      if s.cfg.streamCap < s.slen.toNat then .error .ioRange
      else if s.scap.seek = false then .error .ioNoseek
      else if s.scap.read = false then .error .ioNoread
      else
        match mode with
        | .inPlace ro => .ok (.inPlace ro)
        | .append =>
          if s.scap.write = false then .error .ioNowrite
          else if s.cfg.streamCap < s.slen.toNat + 4 then .error .ioCapacity
          else .ok .append

/-- R153, steps 3 to 6 and the writes: the CRC of the whole stream, whatever CURSOR holds, and the magic delta for the
resolved offset ro. The case of no magic cannot occur (R152). -/
def deriveFrom (op : BitVec 8) (rd rx : Reg) (des : Word) (ro : Nat) (s : State) : State :=
  let N := s.slen.toNat
  match s.foldStream N 0 crcInit with
  | none => s.raise op .ioPort
  | some r =>
    match magicOf (r ^^^ crcXorOut) des ((N - ro) * 8) with
    | none => s.raise op .ariNorecip
    | some m =>
      ((((s.setCrcreg r).setCursor s.slen).writeP rd (polyResult m)).writeP rx (polyResult ro)).noteDerivation
        ⟨polyResult ro, patchWord m⟩

/-- The state DERIVE's checks work on: its operands are read (R16), and in append mode no earlier magic delta is good (R164). -/
def State.deriveIssued (s : State) (rs1 rs2 : Reg) : State :=
  (s.noteReads [rs1, rs2]).issueDerive (s.offsetOperand rs2)

/-- R153: DERIVE rd, rx, rs1, rs2. What an error leaves behind is R155's. deriveIssued and noteDerivation keep the model's own
fields for R23 and R164 (log entries 2 and 10) and touch no state of the core. -/
def execDerive (rd rx rs1 rs2 : Reg) (s : State) : Host.Outcome State Fault Refusal :=
  let op := (Instr.derive rd rx rs1 rs2).opcode
  let s1 := s.deriveIssued rs1 rs2
  match deriveCheck (s.offsetOperand rs2) s1 with
  | .error c => .next (s1.raise op c)
  | .ok (.inPlace ro) => .next (deriveFrom op rd rx (s.crcOperand rs1) ro s1)
  | .ok .append =>
    match s1.appendZeros with
    | .error s2 => .next (s2.raise op .ioPort)
    | .ok s2 => .next (deriveFrom op rd rx (s.crcOperand rs1) s1.slen.toNat s2)

end Sys2Proof.Machine
end

