-- ==== Sys2Proof/Machine/Gf2.lean ====
section
/-! DEFINITION. The GF(2) polynomial arithmetic commands (R121 to R130). Each reads its operands before it writes (R16,
R120). -/

namespace Sys2Proof.Machine

/-- R121: PADD rd, rs1, rs2. -/
def execPadd (rd rs1 rs2 : Reg) (s : State) : Host.Outcome State Fault Refusal :=
  .next ((s.noteReads [rs1, rs2]).writeP rd (s.readP rs1 ^^^ s.readP rs2))

/-- R122: MULMOD rd, rs1, rs2. -/
def execMulmod (rd rs1 rs2 : Reg) (s : State) : Host.Outcome State Fault Refusal :=
  .next ((s.noteReads [rs1, rs2]).writeP rd (polyResult (mulmod (s.polyOperand rs1) (s.polyOperand rs2))))

/-- R124: POWMOD rd, rs1, rs2. -/
def execPowmod (rd rs1 rs2 : Reg) (s : State) : Host.Outcome State Fault Refusal :=
  .next ((s.noteReads [rs1, rs2]).writeP rd (polyResult (powmod (s.polyOperand rs1) (s.countOperand rs2))))

/-- R126: DIVREM rd, rx, rs1, rs2. The remainder is written last. -/
def execDivrem (rd rx rs1 rs2 : Reg) (s : State) : Host.Outcome State Fault Refusal :=
  if s.polyOperand rs2 = 0 then
    .next ((s.noteReads [rs1, rs2]).raise (Instr.divrem rd rx rs1 rs2).opcode .ariDiv0)
  else
    .next (((s.noteReads [rs1, rs2]).writeP rd (polyResult (pdiv (s.polyOperand rs1) (s.polyOperand rs2)))).writeP rx
      (polyResult (pmod (s.polyOperand rs1) (s.polyOperand rs2))))

/-- R128: RECIP rd, rs1. -/
def execRecip (rd rs1 : Reg) (s : State) : Host.Outcome State Fault Refusal :=
  match recip (s.polyOperand rs1) with
  | none => .next ((s.noteReads [rs1]).raise (Instr.recip rd rs1).opcode .ariNorecip)
  | some v => .next ((s.noteReads [rs1]).writeP rd (polyResult v))

/-- R127: DEGREE rd, rs1. -/
def execDegree (rd rs1 : Reg) (s : State) : Host.Outcome State Fault Refusal :=
  .next ((s.noteReads [rs1]).writeP rd (signedResult (deg (s.polyOperand rs1))))

/-- R130: REV32 rd, rs1. -/
def execRev32 (rd rs1 : Reg) (s : State) : Host.Outcome State Fault Refusal :=
  .next ((s.noteReads [rs1]).writeP rd (wordResult (rev32 (s.crcOperand rs1))))

end Sys2Proof.Machine
end

