-- ==== Sys2Proof/Machine/System.lean ====
section
/-! DEFINITION. The system command (R170). -/

namespace Sys2Proof.Machine

/-- R170: NOP, nothing changes. -/
def execNop (s : State) : Host.Outcome State Fault Refusal := .next s

end Sys2Proof.Machine
end

