-- ==== Sys2Proof/Machine/Dispatch.lean ====
section
/-! DEFINITION. One arm per command: its meaning, run with no error recorded and out of flight (Machine/Issue.lean). -/

namespace Sys2Proof.Machine

def exec (i : Instr) (s : State) : Host.Outcome State Fault Refusal :=
  match i with
  | .nop => Sys2Proof.Machine.execNop s
  | .crcinit => Sys2Proof.Machine.execCrcinit s
  | .crcfold rs1 => Sys2Proof.Machine.execCrcfold rs1 s
  | .crcfin rd => Sys2Proof.Machine.execCrcfin rd s
  | .crcstrm rd => Sys2Proof.Machine.execCrcstrm rd s
  | .padd rd rs1 rs2 => Sys2Proof.Machine.execPadd rd rs1 rs2 s
  | .mulmod rd rs1 rs2 => Sys2Proof.Machine.execMulmod rd rs1 rs2 s
  | .powmod rd rs1 rs2 => Sys2Proof.Machine.execPowmod rd rs1 rs2 s
  | .divrem rd rx rs1 rs2 => Sys2Proof.Machine.execDivrem rd rx rs1 rs2 s
  | .recip rd rs1 => Sys2Proof.Machine.execRecip rd rs1 s
  | .degree rd rs1 => Sys2Proof.Machine.execDegree rd rs1 s
  | .rev32 rd rs1 => Sys2Proof.Machine.execRev32 rd rs1 s
  | .delta rd rs1 rs2 rx => Sys2Proof.Machine.execDelta rd rs1 rs2 rx s
  | .derive rd rx rs1 rs2 => Sys2Proof.Machine.execDerive rd rx rs1 rs2 s

end Sys2Proof.Machine
end

