-- ==== Sys2Proof/Machine/Window.lean ====
section
/-! DEFINITION. The host interface of R173: the register window (R60, R61), the host's own accesses to the stream (H6) and its
patch (R160), each as it completes on a core that is not busy. -/

namespace Sys2Proof.Machine

/-- R60: the registers of the window. -/
inductive WindowReg where
  | cmd
  | status
  | crcreg
  | cursor
  | slen
  | scap
  | operand (n : Reg)
  deriving DecidableEq, Repr

/-- R60, R61: the register at an offset; none at a reserved offset and at one that is not a multiple of 8. -/
def windowReg (off : BitVec 8) : Option WindowReg :=
  if off.toNat % 8 ≠ 0 then none
  else
    match off.toNat / 8 with
    | 0 => some .cmd
    | 1 => some .status
    | 2 => some .crcreg
    | 3 => some .cursor
    | 4 => some .slen
    | 5 => some .scap
    | k => if 8 ≤ k ∧ k < 16 then some (.operand (Fin.ofNat 8 (k - 8))) else none

/-- R30, R35: STATUS as it stands, BUSY being 1 while a command is in flight. -/
def State.statusWord (s : State) : Word := s.status.word s.inFlight.isSome

/-- R60, R61: what a read of a window register returns, zero-extended; CMD reads 0 (R32). -/
def State.windowRegValue (s : State) : WindowReg → DWord
  | .cmd => 0
  | .status => wordResult s.statusWord
  | .crcreg => wordResult s.crcreg
  | .cursor => s.cursor
  | .slen => s.slen
  | .scap => wordResult s.scap.word
  | .operand n => s.readP n

/-- R61: what a read at an offset returns, 0 where there is no register. -/
def State.windowValue (s : State) (off : BitVec 8) : DWord :=
  match windowReg off with
  | some r => s.windowRegValue r
  | none => 0

/-- R23: a host read of an operand register counts as a read. -/
def State.noteWindowRead (s : State) (off : BitVec 8) : State :=
  match windowReg off with
  | some (.operand n) => s.noteReads [n]
  | some .cmd => s
  | some .status => s
  | some .crcreg => s
  | some .cursor => s
  | some .slen => s
  | some .scap => s
  | none => s

/-- H1, H2: a window read has no side effect on the core (R59); the host gets the value. -/
def State.hostRead (s : State) (off : BitVec 8) : State :=
  (s.noteWindowRead off).reply (.window off (s.windowValue off))

/-- R31, R185: a host write to STATUS has one effect, CLR if wdata[2] = 1. -/
def State.writeStatus (s : State) (wdata : DWord) : State := if wdata.getLsbD 2 then s.clearError else s

/-- R28: a host write to SLEN. One that changes it leaves no magic delta good (R164). -/
def State.writeSlen (s : State) (v : DWord) : State :=
  if v = s.slen then s.setSlen v else (s.setSlen v).forgetDerivations

/-- H3, H4, H5: a window write stores wdata[w-1:0], acts by R31 on STATUS, and on CMD puts the command in flight (R32,
R35); it does nothing where there is no register. -/
def State.hostWrite (s : State) (off : BitVec 8) (wdata : DWord) : State :=
  match windowReg off with
  | some .cmd => (s.setInFlight (some (wdata.setWidth 32))).setCommanded true
  | some .status => s.writeStatus wdata
  | some .crcreg => s.setCrcreg (wdata.setWidth 32)
  | some .cursor => s.setCursor wdata
  | some .slen => s.writeSlen wdata
  | some .scap => s.setScap (Scap.ofWord (wdata.setWidth 32))
  | some (.operand n) => s.writeP n wdata
  | none => s

/-- H6: the host reads a byte of its stream memory; the core does not observe it. R50: no byte has an address at or above
STREAM_CAP. -/
def State.hostStreamRead (s : State) (addr : DWord) : Host.Outcome State Fault Refusal :=
  if addr.toNat < s.cfg.streamCap then .next (s.reply (.stream addr (s.streamByte addr.toNat)))
  else .fault .outsideStreamSpace

/-- The host has written one byte of the stream space. A byte below SLEN is stream content, and no magic delta is good after
it (R164). -/
def State.storeStream (s : State) (a : Nat) (b : Byte) : State :=
  if a < s.slen.toNat then (s.setStream (s.stream.write a b)).forgetDerivations else s.setStream (s.stream.write a b)

/-- H6: the host writes a byte of its stream memory; the core does not observe it. -/
def State.hostStreamWrite (s : State) (addr : DWord) (b : Byte) : Host.Outcome State Fault Refusal :=
  if addr.toNat < s.cfg.streamCap then .next (s.storeStream addr.toNat b)
  else .fault .outsideStreamSpace

/-- R160, R55: byte k of the patch word, w[8k+7:8k]. -/
def patchByte (w : Word) (k : Nat) : Byte := w.extractLsb' (8 * k) 8

/-- R160: the four bytes the host's patch leaves at ro .. ro+3, the least significant byte of w at the lowest address. -/
def State.patchedBytes (s : State) (ro : Nat) (w : Word) : List Byte :=
  [s.streamByte ro ^^^ patchByte w 0, s.streamByte (ro + 1) ^^^ patchByte w 1, s.streamByte (ro + 2) ^^^ patchByte w 2,
    s.streamByte (ro + 3) ^^^ patchByte w 3]

/-- R160: the stream after the host's patch. -/
def State.hostPatch (s : State) (ro : Nat) (w : Word) : State := s.setStream (s.stream.writeBytes ro (s.patchedBytes ro w))

/-- R160, R164, R175: the host's patch with patch word w at ro, in one store. It has a move only while a DERIVE's magic delta
with that word and offset is good for the stream, and no magic delta is good after it. -/
def State.patchStream (s : State) (ro : DWord) (w : Word) : Host.Outcome State Fault Refusal :=
  if s.derivations.contains ⟨ro, w⟩ then .next (s.hostPatch ro.toNat w).forgetDerivations else .refused .staleMagic

end Sys2Proof.Machine
end

