-- ==== Sys2Proof/Machine/Issue.lean ====
section
/-! DEFINITION. What the core does with the command in flight (R86: skip, decode, execute), with the reset input (R210 to
R213), and with the first of the pending inputs while idle, busy or held in reset. -/

namespace Sys2Proof.Machine

/-- R86, R183, R184: the command in flight completes, in one atomic step (R17). BUSY falls. -/
def completeCommand (w : Word) (s : State) : Host.Outcome State Fault Refusal :=
  let s := s.setInFlight none
  if s.status.err ≠ 0 then .next s.skipCommand
  else
    match decode w with
    | .error .illOpcode => .next (s.raise (opField w) .illOpcode)
    | .error .illReserved => .next (s.raise (opField w) .illReserved)
    | .ok i => exec i s

/-- R86: the command in flight, if its word is neither skipped nor rejected. -/
def State.executing (s : State) : Option Instr :=
  match s.inFlight with
  | none => none
  | some w => if s.status.err ≠ 0 then none else (decode w).toOption

/-- The registers the command in flight reads (R16). -/
def State.readsInFlight (s : State) : List Reg :=
  match s.executing with
  | some i => i.sources
  | none => []

/-- R212: the command in flight can be a DERIVE in append mode (R154: off = −1). An offset register that nothing has written
since reset may hold −1 (R23). -/
def State.appendInFlight (s : State) : Bool :=
  match s.executing with
  | some (.derive _ _ _ rs2) => s.offsetOperand rs2 == -1 || !s.written[rs2.val]
  | _ => false

/-- R212, entry U7: bytes SLEN .. SLEN+3 take any values, as far as the stream space has them. -/
def State.cutAppend (s : State) : State :=
  (s.setStream (s.stream.writeBytes s.slen.toNat
    ((anyFourBytes s.draws).take (s.cfg.streamCap - s.slen.toNat)))).setDraws (s.draws + 4)

/-- R210 to R213: reset is asserted. A command in flight is abandoned and every register takes its reset value; stream
memory is not reset, except for the bytes of an append that was cut short. The abandoned command counts as having read its
operands (R16; log entry 2). What belongs to the model and not to the core stays: the platform, the draws, the mark of an
unwritten read (entry U1: "never a successful end"), the pending inputs and the replies; SLEN has changed, so no magic delta
is good any more (R164), and no command has been written since reset. -/
def State.assertReset (s : State) : State :=
  let s1 := if s.appendInFlight then s.cutAppend else s
  { State.reset with
    resetHeld := true
    stream := s1.stream
    cfg := s.cfg
    uninitRead := (s.noteReads s.readsInFlight).uninitRead
    draws := s1.draws
    inputs := s.inputs
    replies := s.replies }

/-- R210: the inputs left once reset has been released, for a host access that waits for that; none if no release is to
come. -/
def inputsAfterRelease : List Input → Option (List Input)
  | [] => none
  | .releaseReset :: rest => some rest
  | .assertReset :: rest => inputsAfterRelease rest
  | a :: rest => (inputsAfterRelease rest).map fun l => a :: l

/-- R210: "while it is asserted no host access to the window completes". The host's stream accesses do. A window access
waits until the release, and for good if none comes. -/
def stepInReset (s : State) : Host.Outcome State Fault Refusal :=
  match s.inputs with
  | [] => .next s
  | .assertReset :: rest => .next (s.setInputs rest)
  | .releaseReset :: rest => .next ((s.setInputs rest).setResetHeld false)
  | .elapse :: rest => .next (s.setInputs rest)
  | .streamRead a :: rest => (s.setInputs rest).hostStreamRead a
  | .streamWrite a b :: rest => (s.setInputs rest).hostStreamWrite a b
  | .patch ro w :: rest => (s.setInputs rest).patchStream ro w
  | .windowRead off :: rest =>
    match inputsAfterRelease rest with
    | none => .next s
    | some rest' => .next ((s.setInputs (.windowRead off :: rest')).setResetHeld false)
  | .windowWrite off v :: rest =>
    match inputsAfterRelease rest with
    | none => .next s
    | some rest' => .next ((s.setInputs (.windowWrite off v :: rest')).setResetHeld false)

/-- R35, R62, R215: while a command is in flight, a read of STATUS completes with BUSY = 1 and reset can be asserted; every
other access waits, that is, the command completes first and the access is still to come. The host may not touch the stream
while BUSY (R66): that its accesses come after too is the model's choice (DESIGN CHOICE, log entry 10). -/
def stepBusy (w : Word) (s : State) : Host.Outcome State Fault Refusal :=
  match s.inputs with
  | [] => completeCommand w s
  | .elapse :: rest => completeCommand w (s.setInputs rest)
  | .assertReset :: rest => .next (s.setInputs rest).assertReset
  | .releaseReset :: rest => .next (s.setInputs rest)
  | .windowRead off :: rest =>
    if windowReg off = some .status then .next ((s.setInputs rest).hostRead off) else completeCommand w s
  | .windowWrite _ _ :: _ => completeCommand w s
  | .streamRead _ :: _ => completeCommand w s
  | .streamWrite _ _ :: _ => completeCommand w s
  | .patch _ _ :: _ => completeCommand w s

/-- R24, R173: idle, the core waits for the host's next action and does it. -/
def stepIdle (s : State) : Host.Outcome State Fault Refusal :=
  match s.inputs with
  | [] => .next s
  | .elapse :: rest => .next (s.setInputs rest)
  | .assertReset :: rest => .next (s.setInputs rest).assertReset
  | .releaseReset :: rest => .next (s.setInputs rest)
  | .windowRead off :: rest => .next ((s.setInputs rest).hostRead off)
  | .windowWrite off v :: rest => .next ((s.setInputs rest).hostWrite off v)
  | .streamRead a :: rest => (s.setInputs rest).hostStreamRead a
  | .streamWrite a b :: rest => (s.setInputs rest).hostStreamWrite a b
  | .patch ro w :: rest => (s.setInputs rest).patchStream ro w

/-- A command word written to CMD and accepted: it is in flight, and the next thing to happen is that it completes. -/
def State.issue (s : State) (w : Word) : State :=
  (((s.setInFlight (some w)).setCommanded true).setResetHeld false).setInputs (.elapse :: s.inputs)

end Sys2Proof.Machine
end

