-- ==== Sys2Proof/Machine/Step.lean ====
section
/-! DEFINITION. One step of the machine, and where it takes its next command from. -/

namespace Sys2Proof.Machine

/-- One step: the next thing that happens at the core's boundary, or the completion of the command in flight. -/
def step (s : State) : Host.Outcome State Fault Refusal :=
  if s.resetHeld then stepInReset s
  else
    match s.inFlight with
    | some w => stepBusy w s
    | none => stepIdle s

/-- The core fetches nothing (R24, R69): a command comes from a host write to CMD and is then in flight. So this is s
with that word in flight, reset not held, and the command's completion the next thing to happen (log entry 8). -/
def State.withFetchWord (s : State) (nbits w : Nat) : State := s.issue (BitVec.ofNat 32 (w % 2 ^ nbits))

end Sys2Proof.Machine
end

