-- ==== Sys2Proof/Machine/Assembler.lean ====
section
/-! DEFINITION. The assembler syntax of R88: mnemonic, then operands in the order of R84's assembler form; mnemonics and
register names are case-insensitive. -/

namespace Sys2Proof.Machine

/-- R84, column "mnemonic". -/
def mnemonic : Instr → String
  | .nop => "NOP"
  | .crcinit => "CRCINIT"
  | .crcfold _ => "CRCFOLD"
  | .crcfin _ => "CRCFIN"
  | .crcstrm _ => "CRCSTRM"
  | .padd _ _ _ => "PADD"
  | .mulmod _ _ _ => "MULMOD"
  | .powmod _ _ _ => "POWMOD"
  | .divrem _ _ _ _ => "DIVREM"
  | .recip _ _ => "RECIP"
  | .degree _ _ => "DEGREE"
  | .rev32 _ _ => "REV32"
  | .delta _ _ _ _ => "DELTA"
  | .derive _ _ _ _ => "DERIVE"

/-- R84, column "assembler form": the operands in the order they are written. -/
def operands : Instr → List Reg
  | .nop => []
  | .crcinit => []
  | .crcfold rs1 => [rs1]
  | .crcfin rd => [rd]
  | .crcstrm rd => [rd]
  | .padd rd rs1 rs2 => [rd, rs1, rs2]
  | .mulmod rd rs1 rs2 => [rd, rs1, rs2]
  | .powmod rd rs1 rs2 => [rd, rs1, rs2]
  | .divrem rd rx rs1 rs2 => [rd, rx, rs1, rs2]
  | .recip rd rs1 => [rd, rs1]
  | .degree rd rs1 => [rd, rs1]
  | .rev32 rd rs1 => [rd, rs1]
  | .delta rd rs1 rs2 rx => [rd, rs1, rs2, rx]
  | .derive rd rx rs1 rs2 => [rd, rx, rs1, rs2]

/-- R21: the assembler names p0 .. p7. -/
def regNames : List String := ["p0", "p1", "p2", "p3", "p4", "p5", "p6", "p7"]

/-- R21: a register's name. -/
def regName (r : Reg) : String := regNames.getD r.val "p0"

/-- R88: a command as it is written. -/
def assembly (i : Instr) : String :=
  match operands i with
  | [] => mnemonic i
  | rs => mnemonic i ++ " " ++ String.intercalate ", " (rs.map regName)

/-- R88: names are compared without regard to case. -/
def sameName (a b : String) : Bool := a.toList.map Char.toLower == b.toList.map Char.toLower

/-- R88: the register a name spells. -/
def parseReg (t : String) : Option Reg :=
  (List.range 8).findSome? fun k => if sameName t (regNames.getD k "") then some (Fin.ofNat 8 k) else none

/-- R84, R88: the command a mnemonic and its operands spell. -/
def parseCommand (m : String) (rs : List Reg) : Option Instr :=
  match rs with
  | [] => if sameName m "NOP" then some .nop else if sameName m "CRCINIT" then some .crcinit else none
  | [a] =>
    if sameName m "CRCFOLD" then some (.crcfold a)
    else if sameName m "CRCFIN" then some (.crcfin a)
    else if sameName m "CRCSTRM" then some (.crcstrm a)
    else none
  | [a, b] =>
    if sameName m "RECIP" then some (.recip a b)
    else if sameName m "DEGREE" then some (.degree a b)
    else if sameName m "REV32" then some (.rev32 a b)
    else none
  | [a, b, c] =>
    if sameName m "PADD" then some (.padd a b c)
    else if sameName m "MULMOD" then some (.mulmod a b c)
    else if sameName m "POWMOD" then some (.powmod a b c)
    else none
  | [a, b, c, d] =>
    if sameName m "DIVREM" then some (.divrem a b c d)
    else if sameName m "DELTA" then some (.delta a b c d)
    else if sameName m "DERIVE" then some (.derive a b c d)
    else none
  | _ => none

/-- R88: the word of a command written as a mnemonic and its operand names. -/
def assemble (m : String) (names : List String) : Option Word :=
  (names.mapM parseReg).bind fun rs => (parseCommand m rs).map encode

end Sys2Proof.Machine
end

