-- ==== Sys2Proof/Machine/HostProgram.lean ====
section
/-! DEFINITION. What a host does whose next action depends on the core's answers (R89, R171: tests and branches are host code),
as a tree of its actions, and a run of it on the machine. -/

namespace Sys2Proof.Machine

/-- A host's program. -/
inductive HostProgram where
  /-- The host has reached its end. -/
  | done
  /-- The host gives up, having seen an error. -/
  | fail
  /-- An action, and what comes after it. -/
  | act (a : Input) (next : HostProgram)
  /-- A read, and what comes after each answer. -/
  | ask (a : Input) (next : DWord → HostProgram)

/-- The value an answer carries, zero-extended. -/
def Reply.value : Reply → DWord
  | .window _ v => v
  | .stream _ b => b.setWidth 64

/-- The value of the host's latest answer. -/
def State.lastAnswer (s : State) : DWord :=
  match s.replies with
  | [] => 0
  | r :: _ => r.value

/-- The host's next action is this one. It completes in one step, or, where it waits for BUSY (R62), in the step after the
command's completion. -/
def perform (a : Input) (s : State) : Host.Outcome State Fault Refusal :=
  match step (s.setInputs [a]) with
  | .next t => if t.inputs = [] then .next t else step t
  | .fault r => .fault r
  | .refused r => .refused r

/-- A run of a host's program, and whether it reached its end. An action that never completes (a window access while reset is
held, R210) ends the run short of it. The state's own list of inputs plays no part. -/
def HostProgram.run : HostProgram → State → Host.Outcome (State × Bool) Fault Refusal
  | .done, s => .next (s, true)
  | .fail, s => .next (s, false)
  | .act a next, s =>
    match perform a s with
    | .next t => if t.inputs = [] then next.run t else .next (t, false)
    | .fault r => .fault r
    | .refused r => .refused r
  | .ask a next, s =>
    match perform a s with
    | .next t => if t.inputs = [] then (next t.lastAnswer).run t else .next (t, false)
    | .fault r => .fault r
    | .refused r => .refused r

end Sys2Proof.Machine
end

