-- ==== Sys2Proof/Machine/Macros.lean ====
section
/-! DEFINITION. The host's side of the spec: attaching a stream (R174) and the four stream writes of a patch (R160) as lists of
actions, and the source's three entry points as host programs (R89). -/

namespace Sys2Proof.Machine

/-- R60: the window offset of Pn, 0x40 + 8n. -/
def operandOffset (n : Reg) : BitVec 8 := BitVec.ofNat 8 (0x40 + 8 * n.val)

/-- H5: the host writes a command's word to CMD. -/
def hostCommand (i : Instr) : Input := .windowWrite 0x00 (wordResult (encode i))

/-- R174: the host places bytes at consecutive stream addresses. -/
def placeBytes : Nat → List Byte → List Input
  | _, [] => []
  | a, b :: bs => .streamWrite (BitVec.ofNat 64 a) b :: placeBytes (a + 1) bs

/-- R174: the stream's bytes at 0 .. n-1, SLEN <- n, SCAP, CURSOR. -/
def attachStream (bytes : List Byte) (scap cursor : DWord) : List Input :=
  placeBytes 0 bytes ++ [.windowWrite 0x20 (BitVec.ofNat 64 bytes.length), .windowWrite 0x28 scap, .windowWrite 0x18 cursor]

/-- R174: the host detaches by SCAP <- 0. -/
def detachStream : List Input := [.windowWrite 0x28 0]

/-- R160: the patch as four stream writes, from the bytes the host has read. -/
def State.patchInputs (s : State) (ro : Nat) (w : Word) : List Input := placeBytes ro (s.patchedBytes ro w)

/-- R89: the host lets the command complete, reads STATUS, and goes on only if STATUS.ERR (bits 7:4) is 0. -/
def testStatus (next : HostProgram) : HostProgram :=
  .act .elapse (.ask (.windowRead 0x08) fun v => if v.extractLsb' 4 4 = 0 then next else .fail)

/-- R89: computeChecksum(stream) expands to CRCSTRM rd, from the current CURSOR, and ends by testing STATUS.ERR. -/
def computeChecksum (rd : Reg) : HostProgram := .act (hostCommand (.crcstrm rd)) (testStatus .done)

/-- R89: the APPEND sentinel and the default offset, −1 as 64-bit two's complement (R33). -/
def appendSentinel : DWord := 0xFFFFFFFFFFFFFFFF

/-- R89: the expansion of computeMagicDelta and its test of STATUS.ERR, with what the host does if no error is recorded. -/
def computeMagicDeltaThen (rd rx a b : Reg) (desiredCrc : Word) (offset : DWord) (next : HostProgram) : HostProgram :=
  .act (.windowWrite (operandOffset a) (wordResult desiredCrc)) (.act (.windowWrite (operandOffset b) offset)
    (.act (hostCommand (.derive rd rx a b)) (testStatus next)))

/-- R89: computeMagicDelta(stream, desiredCrc = 0xFFFFFFFF, offset = APPEND), with Pa and Pb for the two arguments. -/
def computeMagicDelta (rd rx a b : Reg) (desiredCrc : Word := 0xFFFFFFFF) (offset : DWord := appendSentinel) : HostProgram :=
  computeMagicDeltaThen rd rx a b desiredCrc offset .done

/-- R89: applyPatch(stream, desiredCrc = 0xFFFFFFFF, offset = APPEND): the expansion of computeMagicDelta, REV32 rw, rd, and
the host's patch (R160) at offset Prx with the patch word Prw, both read through the window. The patch is made only if
STATUS.ERR = 0, a DERIVE that failed having left no magic delta. -/
def applyPatch (rd rx a b rw : Reg) (desiredCrc : Word := 0xFFFFFFFF) (offset : DWord := appendSentinel) : HostProgram :=
  computeMagicDeltaThen rd rx a b desiredCrc offset
    (.act (hostCommand (.rev32 rw rd)) (.ask (.windowRead (operandOffset rx)) fun ro =>
      .ask (.windowRead (operandOffset rw)) fun w => .act (.patch ro (w.setWidth 32)) (testStatus .done)))

end Sys2Proof.Machine
end

