-- ==== Sys2Proof/Safety.lean ====
section
/-! DEFINITION. What claims are stated in: the launch premises and the end of a run (R176, R177), its observation, and the
invariant every step keeps. -/

namespace Sys2Proof.Machine

/-- R182: the thirteen causes, listed. -/
def allCauses : List Cause :=
  [.preNull, .preEmpty, .preOffset, .ariDiv0, .ariNorecip, .ioNoread, .ioNowrite, .ioNoseek, .ioCapacity, .ioRange, .ioPort,
    .illOpcode, .illReserved]

/-- R30, R31, R181, R182: STATUS as it can stand. Either no error is recorded and every field is 0, or ERR and CAUSE are the
codes of one cause. -/
def Status.legal (st : Status) : Bool :=
  st == Status.clear || allCauses.any fun c => st.err == c.kind.code && st.cause == c.code

/-- R211: the registers the spec gives a reset value have it, and nothing is in flight. -/
structure State.RegistersReset (s : State) : Prop where
  crcreg   : s.crcreg = 0xFFFFFFFF
  cursor   : s.cursor = 0
  slen     : s.slen = 0
  scap     : s.scap = ⟨false, false, false, false⟩
  status   : s.status = ⟨false, 0, 0, 0⟩
  inFlight : s.inFlight = none

/-- The invariant of the machine: the platform is one R7 allows; the stream space is in canonical form and has no byte at or
above STREAM_CAP (R50); STATUS is legal; while reset is held the core is in its reset state (R210); before the first command
after reset no error is recorded and nothing is in flight (R176, L-reset); a magic delta that is good lies inside the stream
and the stream inside the stream space (R160). -/
structure State.Inv (s : State) : Prop where
  cfgWf        : s.cfg.wf
  streamWf     : s.stream.wf
  streamInside : ∀ c ∈ s.stream, c.1 < s.cfg.streamCap
  statusLegal  : s.status.legal = true
  heldReset    : s.resetHeld = true → s.RegistersReset
  noCommand    : s.commanded = false → s.status = Status.clear ∧ s.inFlight = none
  derivations  : ∀ d ∈ s.derivations, d.ro.toNat + 4 ≤ s.slen.toNat ∧ s.slen.toNat ≤ s.cfg.streamCap

/-- R176, L-reset, before the run's own commands: no command has been written since reset, and reset has been released. That
STATUS is 0 and nothing is in flight follows by State.Inv. The registers hold their reset values but for what the host has
written since, to attach a stream or to write operands (R174, R214). -/
def State.LaunchReset (s : State) : Prop := s.commanded = false ∧ s.resetHeld = false

/-- R176, L-attached: a stream is attached, with SLEN ≤ STREAM_CAP. -/
def State.LaunchAttached (s : State) : Prop := s.scap.present = true ∧ s.slen.toNat ≤ s.cfg.streamCap

/-- R176: the state a run starts in. A read of an unwritten operand register before the launch is none of the run's, so the mark
of one starts clear (DESIGN CHOICE, log entry 22). -/
def State.startRun (s : State) : State := { s with uninitRead := false }

/-- R177: the run's last host action has completed and BUSY = 0. A run whose last action leaves reset asserted has not ended:
R173 and R177 do not say whether it has, and this is the model's choice (DESIGN CHOICE, log entry 20). -/
def State.RunEnded (s : State) : Prop := s.inputs = [] ∧ s.inFlight = none ∧ s.resetHeld = false

/-- R177: in n steps from this launch state the run ends here. The host actions of the run are the launch state's inputs. -/
def RunFrom (launch : State) (n : Nat) (stop : State) : Prop :=
  Host.Core.run Sys2Proof.core n launch.startRun = .next stop ∧ stop.RunEnded

/-- R176, L-written, as the end of a run shows it: every operand register the run read had been written, by the host or a
command since reset, before it was read (R23). -/
def State.LaunchWritten (stop : State) : Prop := stop.uninitRead = false

/-- R177, entries U1 and U11: a run succeeds when it ends with STATUS.ERR = 0 and no unwritten register was read. -/
def RunSucceeds (launch : State) (n : Nat) (stop : State) : Prop :=
  RunFrom launch n stop ∧ stop.status.err = 0 ∧ stop.LaunchWritten

/-- R177: the run's observation. -/
structure Observation where
  p      : Vector DWord 8
  crcreg : Word
  cursor : DWord
  slen   : DWord
  scap   : Word
  status : Word
  stream : List Byte
  deriving DecidableEq, Repr

/-- R177: what a run's end shows. Bytes at or above SLEN are not in it (entry U8). The host may have set SLEN above STREAM_CAP;
the stream space has no byte STREAM[a] there (R50), R177 does not say what the observation holds for it, and here it is the free
value Config.powerOnByte a (DESIGN CHOICE, log entry 21). -/
def State.observe (s : State) : Observation :=
  { p := s.p, crcreg := s.crcreg, cursor := s.cursor, slen := s.slen, scap := s.scap.word, status := s.statusWord,
    stream := s.streamContents }

end Sys2Proof.Machine
end

