-- ==== Sys2Proof/Certificates/Slice0/Obligations.lean ====
section
/-! DEFINITION. The statements, in the order of the spec's files: encoding, the command's way through the core, the host
window, reset, invariants, the CRC engine, GF(2) arithmetic, the deriver and the patch boundary. A result is stated as an
equality with an explicit record, so it states the frame too: what the record does not name is unchanged. -/

namespace Sys2Proof.Spec

open Sys2Proof.Machine

/-- Exactly one word spells the command: its encoding, with match, mask and register places of R85 all in it. -/
def SpelledOnlyBy (i : Instr) (w : Word) : Prop := ∀ v : Word, decode v = .ok i ↔ v = w

/-- A register number in its field of the command word, lowest bit at lo (R81). -/
def field (r : Reg) (lo : Nat) : Word := BitVec.ofNat 32 r.val <<< lo

/-- The mark of R23 after these operand registers have been read. -/
def readMark (s : State) (reads : List Reg) : Bool := s.uninitRead || reads.any fun r => !s.written[r.val]

/-- The state after a command that read these registers wrote v to Prd and did nothing else. -/
def wroteP (s : State) (reads : List Reg) (rd : Reg) (v : DWord) : State :=
  { s with
    p := s.p.set rd.val v rd.isLt
    written := s.written.set rd.val true rd.isLt
    uninitRead := readMark s reads }

/-- The state after a command that read these registers failed (R183): STATUS records the error, and nothing else has
changed. -/
def failed (s : State) (reads : List Reg) (op : BitVec 8) (c : Cause) : State :=
  { s with
    status := { skip := s.status.skip, err := c.kind.code, cause := c.code, errop := op }
    uninitRead := readMark s reads }

/-- Neither a command in flight nor reset held. -/
def Idle (s : State) : Prop := s.inFlight = none ∧ s.resetHeld = false

/-- What waits while a command is in flight: by R62 every window access but a read of STATUS, and, the model's choice (log
entry 10), the host's stream accesses. -/
def waitsForBusy : Input → Bool
  | .windowRead off => off != 0x08
  | .windowWrite _ _ => true
  | .streamRead _ => true
  | .streamWrite _ _ => true
  | .patch _ _ => true
  | .assertReset => false
  | .releaseReset => false
  | .elapse => false

/-- R35: the next step completes the command w in flight, rest being what is then to come: time passes, or nothing more is to
come, or an access waits for BUSY to fall. -/
def Completes (s : State) (w : Word) (rest : List Input) : Prop :=
  s.resetHeld = false ∧ s.inFlight = some w ∧
    (s.inputs = .elapse :: rest ∨ (s.inputs = rest ∧ ∀ a ∈ rest.head?, waitsForBusy a = true))

/-- An access to the host window. -/
def isWindowAccess : Input → Bool
  | .windowRead _ => true
  | .windowWrite _ _ => true
  | .streamRead _ => false
  | .streamWrite _ _ => false
  | .patch _ _ => false
  | .assertReset => false
  | .releaseReset => false
  | .elapse => false

/-- R85: mnemonic, match, mask. -/
def rowsOfR85 : List (String × Word × Word) :=
  [("NOP", 0x00000000, 0xFFFFFFFF), ("CRCINIT", 0x00000010, 0xFFFFFFFF), ("CRCFOLD", 0x00000011, 0xFFFFC7FF),
   ("CRCFIN", 0x00000012, 0xFFFFF8FF), ("CRCSTRM", 0x00000013, 0xFFFFF8FF), ("PADD", 0x00000020, 0xFFFE00FF),
   ("MULMOD", 0x00000021, 0xFFFE00FF)] ++
  [("POWMOD", 0x00000022, 0xFFFE00FF), ("DIVREM", 0x00000023, 0xFFF000FF), ("RECIP", 0x00000024, 0xFFFFC0FF),
   ("DEGREE", 0x00000025, 0xFFFFC0FF), ("REV32", 0x00000026, 0xFFFFC0FF), ("DELTA", 0x00000030, 0xFFF000FF),
   ("DERIVE", 0x00000031, 0xFFF000FF)]

/-- R187: the causes each command can raise besides the decoder's. -/
def causesOf : Instr → List Cause
  | .nop => []
  | .crcinit => []
  | .crcfold _ => []
  | .crcfin _ => []
  | .crcstrm _ => [.preNull, .ioRange, .ioNoread, .ioPort]
  | .padd _ _ _ => []
  | .mulmod _ _ _ => []
  | .powmod _ _ _ => []
  | .divrem _ _ _ _ => [.ariDiv0]
  | .recip _ _ => [.ariNorecip]
  | .degree _ _ => []
  | .rev32 _ _ => []
  | .delta _ _ _ _ => []
  | .derive _ _ _ _ => [.preNull, .preEmpty, .preOffset, .ioRange, .ioNoseek, .ioNoread, .ioNowrite, .ioCapacity, .ioPort]

/-- R22: the operand registers each command writes. -/
def dests : Instr → List Reg
  | .nop => []
  | .crcinit => []
  | .crcfold _ => []
  | .crcfin rd => [rd]
  | .crcstrm rd => [rd]
  | .padd rd _ _ => [rd]
  | .mulmod rd _ _ => [rd]
  | .powmod rd _ _ => [rd]
  | .divrem rd rx _ _ => [rd, rx]
  | .recip rd _ => [rd]
  | .degree rd _ => [rd]
  | .rev32 rd _ => [rd]
  | .delta rd _ _ _ => [rd]
  | .derive rd rx _ _ => [rd, rx]

/-- The commands of 42_gf2.md. -/
def isGf2 : Instr → Bool
  | .nop => false
  | .crcinit => false
  | .crcfold _ => false
  | .crcfin _ => false
  | .crcstrm _ => false
  | .padd _ _ _ => true
  | .mulmod _ _ _ => true
  | .powmod _ _ _ => true
  | .divrem _ _ _ _ => true
  | .recip _ _ => true
  | .degree _ _ => true
  | .rev32 _ _ => true
  | .delta _ _ _ _ => false
  | .derive _ _ _ _ => false

/-- R186 with R153, R154: the first check of a DERIVE with offset off that fails. -/
def deriveFirstError (s : State) (off : Int) : Option Cause :=
  let L := s.slen.toNat
  ([(s.scap.present == false, Cause.preNull), (L == 0, .preEmpty),
    (!(off == -1 || decide (0 ≤ off ∧ off ≤ (L : Int) - 4) || decide (-(L : Int) ≤ off ∧ off ≤ -4)), .preOffset),
    (decide (s.cfg.streamCap < L), .ioRange), (s.scap.seek == false, .ioNoseek), (s.scap.read == false, .ioNoread),
    (off == -1 && s.scap.write == false, .ioNowrite), (off == -1 && decide (s.cfg.streamCap < L + 4), .ioCapacity)].find?
      fun c => c.1).map fun c => c.2

/-- The state a DERIVE works on: one in append mode leaves no earlier magic delta good (R164; the model's own field, log
entry 10). -/
def issued (s : State) (rs2 : Reg) : State :=
  { s with derivations := if s.p[rs2.val].toInt = -1 then [] else s.derivations }

/-- The state after a successful DERIVE that folded the bytes m and resolved ro. -/
def derived (s : State) (rd rx rs1 rs2 : Reg) (m : List Byte) (magic ro : Nat) : State :=
  { s with
    crcreg := crcReg m
    cursor := s.slen
    p := (s.p.set rd.val (BitVec.ofNat 64 magic) rd.isLt).set rx.val (BitVec.ofNat 64 ro) rx.isLt
    written := (s.written.set rd.val true rd.isLt).set rx.val true rx.isLt
    uninitRead := readMark s [rs1, rs2]
    derivations := ⟨BitVec.ofNat 64 ro, patchWord magic⟩ :: (issued s rs2).derivations }

/-- A DERIVE that ran on s, with no error recorded before or after, and left t. -/
def DeriveSucceeds (s : State) (rd rx rs1 rs2 : Reg) (t : State) : Prop :=
  s.cfg.wf ∧ s.status.err = 0 ∧ exec (.derive rd rx rs1 rs2) s = .next t ∧ t.status.err = 0

/-- R101: the table as the spec prints it, eight entries a row. -/
def tableOfR101 : List Word :=
  [0x00000000, 0x77073096, 0xEE0E612C, 0x990951BA, 0x076DC419, 0x706AF48F, 0xE963A535, 0x9E6495A3] ++
  [0x0EDB8832, 0x79DCB8A4, 0xE0D5E91E, 0x97D2D988, 0x09B64C2B, 0x7EB17CBD, 0xE7B82D07, 0x90BF1D91] ++
  [0x1DB71064, 0x6AB020F2, 0xF3B97148, 0x84BE41DE, 0x1ADAD47D, 0x6DDDE4EB, 0xF4D4B551, 0x83D385C7] ++
  [0x136C9856, 0x646BA8C0, 0xFD62F97A, 0x8A65C9EC, 0x14015C4F, 0x63066CD9, 0xFA0F3D63, 0x8D080DF5] ++
  [0x3B6E20C8, 0x4C69105E, 0xD56041E4, 0xA2677172, 0x3C03E4D1, 0x4B04D447, 0xD20D85FD, 0xA50AB56B] ++
  [0x35B5A8FA, 0x42B2986C, 0xDBBBC9D6, 0xACBCF940, 0x32D86CE3, 0x45DF5C75, 0xDCD60DCF, 0xABD13D59] ++
  [0x26D930AC, 0x51DE003A, 0xC8D75180, 0xBFD06116, 0x21B4F4B5, 0x56B3C423, 0xCFBA9599, 0xB8BDA50F] ++
  [0x2802B89E, 0x5F058808, 0xC60CD9B2, 0xB10BE924, 0x2F6F7C87, 0x58684C11, 0xC1611DAB, 0xB6662D3D] ++
  [0x76DC4190, 0x01DB7106, 0x98D220BC, 0xEFD5102A, 0x71B18589, 0x06B6B51F, 0x9FBFE4A5, 0xE8B8D433] ++
  [0x7807C9A2, 0x0F00F934, 0x9609A88E, 0xE10E9818, 0x7F6A0DBB, 0x086D3D2D, 0x91646C97, 0xE6635C01] ++
  [0x6B6B51F4, 0x1C6C6162, 0x856530D8, 0xF262004E, 0x6C0695ED, 0x1B01A57B, 0x8208F4C1, 0xF50FC457] ++
  [0x65B0D9C6, 0x12B7E950, 0x8BBEB8EA, 0xFCB9887C, 0x62DD1DDF, 0x15DA2D49, 0x8CD37CF3, 0xFBD44C65] ++
  [0x4DB26158, 0x3AB551CE, 0xA3BC0074, 0xD4BB30E2, 0x4ADFA541, 0x3DD895D7, 0xA4D1C46D, 0xD3D6F4FB] ++
  [0x4369E96A, 0x346ED9FC, 0xAD678846, 0xDA60B8D0, 0x44042D73, 0x33031DE5, 0xAA0A4C5F, 0xDD0D7CC9] ++
  [0x5005713C, 0x270241AA, 0xBE0B1010, 0xC90C2086, 0x5768B525, 0x206F85B3, 0xB966D409, 0xCE61E49F] ++
  [0x5EDEF90E, 0x29D9C998, 0xB0D09822, 0xC7D7A8B4, 0x59B33D17, 0x2EB40D81, 0xB7BD5C3B, 0xC0BA6CAD] ++
  [0xEDB88320, 0x9ABFB3B6, 0x03B6E20C, 0x74B1D29A, 0xEAD54739, 0x9DD277AF, 0x04DB2615, 0x73DC1683] ++
  [0xE3630B12, 0x94643B84, 0x0D6D6A3E, 0x7A6A5AA8, 0xE40ECF0B, 0x9309FF9D, 0x0A00AE27, 0x7D079EB1] ++
  [0xF00F9344, 0x8708A3D2, 0x1E01F268, 0x6906C2FE, 0xF762575D, 0x806567CB, 0x196C3671, 0x6E6B06E7] ++
  [0xFED41B76, 0x89D32BE0, 0x10DA7A5A, 0x67DD4ACC, 0xF9B9DF6F, 0x8EBEEFF9, 0x17B7BE43, 0x60B08ED5] ++
  [0xD6D6A3E8, 0xA1D1937E, 0x38D8C2C4, 0x4FDFF252, 0xD1BB67F1, 0xA6BC5767, 0x3FB506DD, 0x48B2364B] ++
  [0xD80D2BDA, 0xAF0A1B4C, 0x36034AF6, 0x41047A60, 0xDF60EFC3, 0xA867DF55, 0x316E8EEF, 0x4669BE79] ++
  [0xCB61B38C, 0xBC66831A, 0x256FD2A0, 0x5268E236, 0xCC0C7795, 0xBB0B4703, 0x220216B9, 0x5505262F] ++
  [0xC5BA3BBE, 0xB2BD0B28, 0x2BB45A92, 0x5CB36A04, 0xC2D7FFA7, 0xB5D0CF31, 0x2CD99E8B, 0x5BDEAE1D] ++
  [0x9B64C2B0, 0xEC63F226, 0x756AA39C, 0x026D930A, 0x9C0906A9, 0xEB0E363F, 0x72076785, 0x05005713] ++
  [0x95BF4A82, 0xE2B87A14, 0x7BB12BAE, 0x0CB61B38, 0x92D28E9B, 0xE5D5BE0D, 0x7CDCEFB7, 0x0BDBDF21] ++
  [0x86D3D2D4, 0xF1D4E242, 0x68DDB3F8, 0x1FDA836E, 0x81BE16CD, 0xF6B9265B, 0x6FB077E1, 0x18B74777] ++
  [0x88085AE6, 0xFF0F6A70, 0x66063BCA, 0x11010B5C, 0x8F659EFF, 0xF862AE69, 0x616BFFD3, 0x166CCF45] ++
  [0xA00AE278, 0xD70DD2EE, 0x4E048354, 0x3903B3C2, 0xA7672661, 0xD06016F7, 0x4969474D, 0x3E6E77DB] ++
  [0xAED16A4A, 0xD9D65ADC, 0x40DF0B66, 0x37D83BF0, 0xA9BCAE53, 0xDEBB9EC5, 0x47B2CF7F, 0x30B5FFE9] ++
  [0xBDBDF21C, 0xCABAC28A, 0x53B39330, 0x24B4A3A6, 0xBAD03605, 0xCDD70693, 0x54DE5729, 0x23D967BF] ++
  [0xB3667A2E, 0xC4614AB8, 0x5D681B02, 0x2A6F2B94, 0xB40BBE37, 0xC30C8EA1, 0x5A05DF1B, 0x2D02EF8D]

end Sys2Proof.Spec

open Sys2Proof Sys2Proof.Machine Sys2Proof.Spec

/-! Encoding. -/

/-- R85, R88. Every command is well formed, its word carries exactly its fields, and decodes back to it. -/
def Obligations.EncodedCommandDecodesBack : Prop :=
  ∀ i : Instr, i.wellFormed = true ∧ RawCmd.ofWord (encode i) = i.raw ∧ decode (encode i) = .ok i

/-- R85, R88. A word that decodes to a command is that command's encoding: no two words spell one command. -/
def Obligations.DecodedWordIsTheEncoding : Prop :=
  ∀ (w : Word) (i : Instr), decode w = .ok i → w = encode i

/-- R86 steps 2 to 4, field by field: which words are rejected, by which name, and that the others give the command their
fields name. -/
def Obligations.DecoderFollowsFieldRules : Prop :=
  ∀ w : Word,
    (decode w = .error .illOpcode ↔ (RawCmd.ofWord w).assigned = false) ∧
    (decode w = .error .illReserved ↔ (RawCmd.ofWord w).assigned = true ∧ (RawCmd.ofWord w).unusedZero = false) ∧
    ((∃ i, decode w = .ok i) ↔ (RawCmd.ofWord w).wellFormed = true) ∧
    ∀ i, decode w = .ok i → RawCmd.ofWord w = i.raw

/-- R85. A word spells a command exactly when its mask gives its match, and no word matches two rows. -/
def Obligations.MaskAndMatchSpellCommand : Prop :=
  (∀ row ∈ rowsOfR85, ∀ w : Word, w &&& row.2.2 = row.2.1 ↔ ∃ i, decode w = .ok i ∧ mnemonic i = row.1) ∧
  (∀ w : Word, ∀ a ∈ rowsOfR85, ∀ b ∈ rowsOfR85, w &&& a.2.2 = a.2.1 → w &&& b.2.2 = b.2.1 → a = b) ∧
  ∀ i : Instr, ∃ row ∈ rowsOfR85, row.1 = mnemonic i

/-- 95_test_vectors.md, programs P1 to P5 and "further encodings": words written out there decode to what they stand for. -/
def Obligations.PrintedWordsDecode : Prop :=
  decode 0x00000000 = .ok .nop ∧ decode 0x00000010 = .ok .crcinit ∧ decode 0x00003811 = .ok (.crcfold 7) ∧
  decode 0x00000712 = .ok (.crcfin 7) ∧ decode 0x00000413 = .ok (.crcstrm 4) ∧ decode 0x00016420 = .ok (.padd 4 4 5) ∧
  decode 0x00013721 = .ok (.mulmod 7 6 4) ∧ decode 0x0000D122 = .ok (.powmod 1 2 3) ∧
  decode 0x000D2F23 = .ok (.divrem 7 6 5 4) ∧ decode 0x00002E24 = .ok (.recip 6 5) ∧ decode 0x00000125 = .ok (.degree 1 0) ∧
  decode 0x00000D26 = .ok (.rev32 5 1) ∧ decode 0x00097730 = .ok (.delta 7 6 5 4) ∧
  decode 0x000E8E31 = .ok (.derive 6 7 1 2) ∧ decode 0x000000FF = .error .illOpcode ∧ decode 0x00100020 = .error .illReserved

/-- R88. The assembler form of a command, its mnemonic and its operands in R84's order, gives its encoding. -/
def Obligations.AssemblyNamesTheEncodedWord : Prop :=
  ∀ i : Instr, assemble (mnemonic i) ((operands i).map regName) = some (encode i)

/-! A command's way through the core. -/

/-- R17, R35, R86 step 4. While no error is recorded, a step that completes a well-formed word in flight is exec of the
command it spells, with the word out of flight and the passage of time used up; an access that waits is still to come. The
same for the word withFetchWord puts in flight. -/
def Obligations.StepRunsTheCommandInFlight : Prop :=
  (∀ (s : State) (w : Word) (rest : List Input) (i : Instr), Completes s w rest → s.status.err = 0 → decode w = .ok i →
    step s = exec i { s with inFlight := none, inputs := rest }) ∧
  ∀ (s : State) (w : Nat) (i : Instr), s.status.err = 0 → decode (BitVec.ofNat 32 w) = .ok i →
    step (s.withFetchWord 32 w) = exec i { s with inFlight := none, resetHeld := false, commanded := true }

/-- R86, R87. What becomes of a written word: skipped while an error is recorded; else ILL_OPCODE, for 242 of the opcodes;
else ILL_RESERVED; else it runs. An illegal word changes nothing but STATUS and reads no operand. -/
def Obligations.WordIsSkippedRejectedOrRun : Prop :=
  (∀ (s : State) (w : Word) (rest : List Input), Completes s w rest →
    (s.status.err ≠ 0 →
      step s = .next { s with inFlight := none, inputs := rest, status := { s.status with skip := true } }) ∧
    (s.status.err = 0 → (RawCmd.ofWord w).assigned = false →
      step s = .next (failed { s with inFlight := none, inputs := rest } [] (w.extractLsb' 0 8) .illOpcode)) ∧
    (s.status.err = 0 → (RawCmd.ofWord w).assigned = true → (RawCmd.ofWord w).unusedZero = false →
      step s = .next (failed { s with inFlight := none, inputs := rest } [] (w.extractLsb' 0 8) .illReserved)) ∧
    (s.status.err = 0 → (RawCmd.ofWord w).assigned = true → (RawCmd.ofWord w).unusedZero = true →
      ∃ i, i.raw = RawCmd.ofWord w ∧ step s = exec i { s with inFlight := none, inputs := rest })) ∧
  ((List.range 256).filter fun k => !(RawCmd.assigned ⟨BitVec.ofNat 8 k, 0, 0, 0, 0, 0⟩)).length = 242

/-- R184. While an error is recorded, every word, legal or not, is skipped: SKIP is set, ERR, CAUSE and ERROP keep the first
error, and nothing else changes. -/
def Obligations.ErrorsAreSticky : Prop :=
  ∀ (s : State) (w : Word) (rest : List Input), Completes s w rest →
    s.status.err ≠ 0 →
      ∃ t, step s = .next t ∧ t.status.skip = true ∧ t.status.err = s.status.err ∧ t.status.cause = s.status.cause ∧
        t.status.errop = s.status.errop ∧
        t = { s with inFlight := none, inputs := rest, status := t.status }

/-- R31, R185. A host write to STATUS with bit 2 set clears ERR, CAUSE, ERROP and SKIP; with bit 2 clear it changes nothing.
A word put in flight after a clear is run, not skipped. -/
def Obligations.StatusWriteClears : Prop :=
  (∀ (s : State) (v : DWord) (rest : List Input), Idle s → s.inputs = .windowWrite 0x08 v :: rest →
    (v.getLsbD 2 = true → step s = .next { s with inputs := rest, status := ⟨false, 0, 0, 0⟩ }) ∧
    (v.getLsbD 2 = false → step s = .next { s with inputs := rest })) ∧
  ∀ (s t : State) (v : DWord) (rest : List Input) (w : Nat) (i : Instr), Idle s → s.inputs = .windowWrite 0x08 v :: rest →
    v.getLsbD 2 = true → step s = .next t → decode (BitVec.ofNat 32 w) = .ok i →
      step (t.withFetchWord 32 w) = exec i { t with commanded := true }

/-- R183. When a word in flight ends in an error, in one step: STATUS records one cause's kind and code and the word's bits
7:0, SKIP is unchanged and BUSY falls; no operand register, CRCREG or CURSOR is written; and unless the word is a DERIVE in
append mode (R155), SLEN and every stream byte are as they were. -/
def Obligations.RaisingAnErrorIsPrecise : Prop :=
  ∀ (s t : State) (w : Word) (rest : List Input), Completes s w rest →
    s.status.err = 0 → step s = .next t → t.status.err ≠ 0 →
      (∃ c : Cause, t.status.err = c.kind.code ∧ t.status.cause = c.code) ∧ t.status.errop = w.extractLsb' 0 8 ∧
      t.status.skip = s.status.skip ∧ t.inFlight = none ∧
      t.p = s.p ∧ t.written = s.written ∧ t.crcreg = s.crcreg ∧ t.cursor = s.cursor ∧ t.scap = s.scap ∧
      ((∀ rd rx rs1 rs2, decode w = .ok (.derive rd rx rs1 rs2) → s.offsetOperand rs2 ≠ -1) →
        t.slen = s.slen ∧ ∀ a, t.streamByte a = s.streamByte a)

/-- R187. A command that fails raised one of its own causes; DELTA and the ten commands with none never fail. -/
def Obligations.CommandsRaiseOnlyTheirCauses : Prop :=
  ∀ (i : Instr) (s t : State), s.status.err = 0 → exec i s = .next t → t.status.err ≠ 0 →
    ∃ c ∈ causesOf i, t.status.err = c.kind.code ∧ t.status.cause = c.code ∧ t.status.errop = i.opcode

/-- R30, R181, R182. The layout of STATUS as the host reads it, and the codes an error records. -/
def Obligations.StatusLayoutAndCodes : Prop :=
  (∀ s : State, s.statusWord.getLsbD 0 = s.inFlight.isSome ∧ s.statusWord.getLsbD 1 = s.status.skip ∧
    s.statusWord.extractLsb' 2 2 = 0 ∧ s.statusWord.extractLsb' 4 4 = s.status.err ∧
    s.statusWord.extractLsb' 8 8 = s.status.cause ∧ s.statusWord.extractLsb' 16 8 = s.status.errop ∧
    s.statusWord.extractLsb' 24 8 = 0) ∧
  (allCauses.map fun c => (c.kind.code.toNat, c.code.toNat)) =
    [(1, 0x11), (1, 0x12), (1, 0x13), (2, 0x21), (2, 0x22), (3, 0x31), (3, 0x32), (3, 0x33), (3, 0x34), (3, 0x35), (3, 0x36),
      (4, 0x41), (4, 0x42)]

/-! The host window. -/

/-- R60, R61. On an idle core every window access completes. A read answers the whole register, zero-extended, and 0 at an
offset that is reserved or no multiple of 8; a write stores the low bits the register has, acts as R31 on STATUS, puts the
word in flight on CMD, and does nothing elsewhere. The model's own fields: a write of CMD is noted (log entry 22), and a
changed SLEN leaves no magic delta good (log entry 10). -/
def Obligations.WindowMap : Prop :=
  ∀ (s : State) (off : BitVec 8) (v : DWord) (rest : List Input), Idle s →
    (s.inputs = .windowRead off :: rest →
      ∃ x m, step s = .next { s with inputs := rest, replies := .window off x :: s.replies, uninitRead := m } ∧
        (off = 0x00 → x = 0) ∧ (off = 0x08 → x = s.statusWord.setWidth 64) ∧ (off = 0x10 → x = s.crcreg.setWidth 64) ∧
        (off = 0x18 → x = s.cursor) ∧ (off = 0x20 → x = s.slen) ∧ (off = 0x28 → x = s.scap.word.setWidth 64) ∧
        (∀ n : Reg, off.toNat = 0x40 + 8 * n.val → x = s.p[n.val] ∧ m = readMark s [n]) ∧
        ((off.toNat % 8 ≠ 0 ∨ off.toNat = 0x30 ∨ off.toNat = 0x38 ∨ 0x80 ≤ off.toNat) → x = 0) ∧
        ((off.toNat < 0x40 ∨ 0x80 ≤ off.toNat ∨ off.toNat % 8 ≠ 0) → m = s.uninitRead)) ∧
    (s.inputs = .windowWrite off v :: rest →
      (off = 0x00 → step s = .next { s with inputs := rest, inFlight := some (v.setWidth 32), commanded := true }) ∧
      (off = 0x08 → step s = .next { s with inputs := rest, status := if v.getLsbD 2 then ⟨false, 0, 0, 0⟩ else s.status }) ∧
      (off = 0x10 → step s = .next { s with inputs := rest, crcreg := v.setWidth 32 }) ∧
      (off = 0x18 → step s = .next { s with inputs := rest, cursor := v }) ∧
      (off = 0x20 → step s = .next
        { s with inputs := rest, slen := v, derivations := if v = s.slen then s.derivations else [] }) ∧
      (off = 0x28 → step s = .next { s with inputs := rest, scap := ⟨v.getLsbD 0, v.getLsbD 1, v.getLsbD 2, v.getLsbD 3⟩ }) ∧
      (∀ n : Reg, off.toNat = 0x40 + 8 * n.val →
        step s = .next { s with inputs := rest, p := s.p.set n.val v n.isLt, written := s.written.set n.val true n.isLt }) ∧
      ((off.toNat % 8 ≠ 0 ∨ off.toNat = 0x30 ∨ off.toNat = 0x38 ∨ 0x80 ≤ off.toNat) → step s = .next { s with inputs := rest }))

/-- R35. A read of STATUS while a command is in flight completes at once, with BUSY = 1 and every other field as it was
before the command; the command stays in flight. -/
def Obligations.StatusReadWhileBusy : Prop :=
  ∀ (s : State) (w : Word) (rest : List Input), s.resetHeld = false → s.inFlight = some w →
    s.inputs = .windowRead 0x08 :: rest →
      step s = .next { s with inputs := rest, replies := .window 0x08 ((s.status.word false ||| 1#32).setWidth 64) :: s.replies }

/-- R62, R215. Any other access waits while a command is in flight: the step completes the command, whatever its word and
whatever becomes of it, and leaves the access to come, unanswered, on a core that is no longer busy. R62 and R215 say so of
window accesses. That an access of the host to its stream waits too is the model's choice (log entry 10): R66 makes it the
host's duty not to touch the stream then, and gives such an access no move. -/
def Obligations.AccessWaitsWhileBusy : Prop :=
  ∀ (s : State) (w : Word) (a : Input) (rest : List Input), s.resetHeld = false → s.inFlight = some w →
    s.inputs = a :: rest → waitsForBusy a = true →
      ∃ t, step s = .next t ∧ t.inFlight = none ∧ t.inputs = a :: rest ∧ t.replies = s.replies

/-! Reset. -/

/-- R211. After reset CRCREG is all ones, CURSOR, SLEN, SCAP and STATUS read 0, and no command is in flight. -/
def Obligations.ResetValues : Prop :=
  State.reset.crcreg = 0xFFFFFFFF ∧ State.reset.cursor = 0 ∧ State.reset.slen = 0 ∧ State.reset.scap.word = 0 ∧
    State.reset.statusWord = 0 ∧ State.reset.inFlight = none ∧ State.reset.resetHeld = false

/-- R212, R213. When reset is asserted, busy or not, a command in flight is abandoned and every register with a reset value
takes it; no stream byte changes, but for bytes SLEN .. SLEN+3 when the command in flight is a DERIVE in append mode. That
P0 .. P7 take the value they have in State.reset is the model's choice (log entry 1), not a rule. So are that the abandoned
command counts as having read its operands (log entry 2), and that an offset register nothing has written may hold −1 (log
entry 11). -/
def Obligations.AssertingReset : Prop :=
  ∀ (s : State) (rest : List Input), s.resetHeld = false → s.inputs = .assertReset :: rest →
    ∃ t, step s = .next t ∧ t.RegistersReset ∧ t.resetHeld = true ∧ t.inputs = rest ∧ t.replies = s.replies ∧
      t.cfg = s.cfg ∧ t.p = State.reset.p ∧ t.commanded = false ∧ t.derivations = [] ∧
      (t.uninitRead = true ↔ s.uninitRead = true ∨ ∃ w i, s.inFlight = some w ∧ s.status.err = 0 ∧ decode w = .ok i ∧
        ∃ q ∈ i.sources, s.written[q.val] = false) ∧
      (∀ a, a < s.slen.toNat ∨ s.slen.toNat + 4 ≤ a → t.streamByte a = s.streamByte a) ∧
      ((∀ w rd rx rs1 rs2, s.inFlight = some w → decode w = .ok (.derive rd rx rs1 rs2) →
          s.offsetOperand rs2 ≠ -1 ∧ s.written[rs2.val] = true) →
        t.stream = s.stream)

/-- R210. While reset is asserted no window access completes: it is still to come after every step, unanswered, with no
register changed; and when reset is released, nothing else changes, so the core is in its reset state. -/
def Obligations.WindowWaitsForRelease : Prop :=
  (∀ (s t : State) (a : Input) (rest : List Input), s.resetHeld = true → s.inputs = a :: rest → isWindowAccess a = true →
    step s = .next t →
      (∃ l, t.inputs = a :: l) ∧ t = { s with resetHeld := t.resetHeld, inputs := t.inputs } ∧
      (t.resetHeld = false → Input.releaseReset ∈ rest)) ∧
  ∀ (s : State) (rest : List Input), s.resetHeld = true → s.inputs = .releaseReset :: rest →
    step s = .next { s with resetHeld := false, inputs := rest }

/-! Invariants and whole-machine rules. -/

/-- The state after reset meets the invariant of Safety.lean. -/
def Obligations.ResetMeetsInvariant : Prop := State.reset.Inv

/-- Every step keeps the invariant: the platform is one R7 allows, the stream space is in canonical form and inside
STREAM_CAP (R50), STATUS is legal (R30, R181, R182), a held reset holds the registers at their reset values (R210), before the
first command after reset STATUS is 0 and nothing is in flight (R176), and a magic delta that is good lies inside the stream
(R160). -/
def Obligations.EveryStepKeepsInvariant : Prop :=
  ∀ s t : State, s.Inv → step s = .next t → t.Inv

/-- R173 H6, R50, R175, and the model's choices (log entries 9 and 10). A step always answers a next state, but for a host
access to its own stream memory at or above STREAM_CAP, which faults, and a host's patch with a magic delta that is not good for
the stream, which has no move. Below STREAM_CAP a host read answers the byte and a host write changes that byte and no other. -/
def Obligations.StepStopsOnlyOnHostStreamAction : Prop :=
  (∀ s : State, (∃ t, step s = .next t) ∨
    ((s.inFlight = none ∨ s.resetHeld = true) ∧ ∃ rest,
      ((step s = .fault .outsideStreamSpace ∧
          ∃ a, (s.inputs = .streamRead a :: rest ∨ ∃ b, s.inputs = .streamWrite a b :: rest) ∧ s.cfg.streamCap ≤ a.toNat) ∨
        (step s = .refused .staleMagic ∧ ∃ ro w, s.inputs = .patch ro w :: rest ∧ ⟨ro, w⟩ ∉ s.derivations)))) ∧
  ∀ (s : State) (a : DWord) (b : Byte) (rest : List Input), Idle s → a.toNat < s.cfg.streamCap →
    (s.inputs = .streamRead a :: rest →
      step s = .next { s with inputs := rest, replies := .stream a (s.streamByte a.toNat) :: s.replies }) ∧
    (s.inputs = .streamWrite a b :: rest →
      ∃ t, step s = .next t ∧ t = { s with
          inputs := rest, stream := t.stream, derivations := if a.toNat < s.slen.toNat then [] else s.derivations } ∧
        ∀ x, t.streamByte x = if x = a.toNat then b else s.streamByte x)

/-- R218, R17. Every command, on every state, answers a next state: it takes effect or records an error. It leaves the
platform, SCAP, the reset line, the command in flight, the host's pending actions, the replies and the note of a first command
as they were. -/
def Obligations.EveryCommandAnswersNext : Prop :=
  ∀ (i : Instr) (s : State), ∃ t, exec i s = .next t ∧ t.cfg = s.cfg ∧ t.scap = s.scap ∧ t.resetHeld = s.resetHeld ∧
    t.inFlight = s.inFlight ∧ t.inputs = s.inputs ∧ t.replies = s.replies ∧ t.commanded = s.commanded

/-- R7, entry U1, R173. No step changes the platform; the mark of an unwritten read stays once set; answers already given
stay given. -/
def Obligations.StepsKeepPlatformAndHistory : Prop :=
  ∀ s t : State, step s = .next t →
    t.cfg = s.cfg ∧ (s.uninitRead = true → t.uninitRead = true) ∧ s.draws ≤ t.draws ∧ s.replies <:+ t.replies

/-- R25, R27, R28, R29, R54. Which commands change CRCREG, CURSOR, SLEN and the stream; none changes SCAP. -/
def Obligations.WhichCommandsWriteWhat : Prop :=
  ∀ (i : Instr) (s t : State), exec i s = .next t →
    (t.crcreg ≠ s.crcreg →
      i = .crcinit ∨ (∃ r, i = .crcfold r) ∨ (∃ r, i = .crcstrm r) ∨ ∃ rd rx rs1 rs2, i = .derive rd rx rs1 rs2) ∧
    (t.cursor ≠ s.cursor → (∃ r, i = .crcstrm r) ∨ ∃ rd rx rs1 rs2, i = .derive rd rx rs1 rs2) ∧
    ((t.slen ≠ s.slen ∨ t.stream ≠ s.stream) →
      ∃ rd rx rs1 rs2, i = .derive rd rx rs1 rs2 ∧ s.offsetOperand rs2 = -1) ∧
    t.scap = s.scap ∧ ∀ q : Reg, q ∉ dests i → t.p[q.val] = s.p[q.val]

/-- R109. No CRC engine command writes the stream. CRCINIT, CRCFOLD and CRCFIN neither read nor write any stream state;
CRCSTRM writes only CRCREG, Prd and CURSOR, or, when it fails, STATUS. -/
def Obligations.CrcCommandsLeaveTheStream : Prop :=
  (∀ (i : Instr) (s t : State) (m : Memory) (cur len : DWord) (c : Scap),
    (i = .crcinit ∨ (∃ r, i = .crcfold r) ∨ ∃ r, i = .crcfin r) → exec i s = .next t →
      t.stream = s.stream ∧ t.cursor = s.cursor ∧ t.slen = s.slen ∧ t.scap = s.scap ∧
      exec i { s with stream := m, cursor := cur, slen := len, scap := c } =
        .next { t with stream := m, cursor := cur, slen := len, scap := c }) ∧
  ∀ (rd : Reg) (s t : State), exec (.crcstrm rd) s = .next t →
    t = { s with status := t.status } ∨
    t = { s with crcreg := t.crcreg, cursor := t.cursor, p := s.p.set rd.val t.p[rd.val] rd.isLt,
                 written := s.written.set rd.val true rd.isLt }

/-! The system command and the CRC engine. -/

/-- R170. NOP is the all-zero word; it changes no state. With OP 0x00, any other bit set is ILL_RESERVED. While an error is
recorded a NOP in flight sets SKIP. -/
def Obligations.NopChangesNothing : Prop :=
  SpelledOnlyBy .nop 0x00000000 ∧ (∀ s : State, exec .nop s = .next s) ∧
  (∀ w : Word, w.extractLsb' 0 8 = 0 → w ≠ 0 → decode w = .error .illReserved) ∧
  ∀ s : State, s.status.err ≠ 0 →
    step (s.withFetchWord 32 0) = .next
      { s with inFlight := none, resetHeld := false, commanded := true, status := { s.status with skip := true } }

/-- R103. -/
def Obligations.CrcinitResult : Prop :=
  SpelledOnlyBy .crcinit 0x00000010 ∧ ∀ s : State, exec .crcinit s = .next { s with crcreg := 0xFFFFFFFF }

/-- R104. -/
def Obligations.CrcfoldResult : Prop :=
  ∀ rs1 : Reg, SpelledOnlyBy (.crcfold rs1) (0x00000011 ||| field rs1 11) ∧
    (∀ s : State, exec (.crcfold rs1) s =
      .next { s with crcreg := fold8 s.crcreg (s.p[rs1.val].setWidth 8), uninitRead := readMark s [rs1] }) ∧
    fold8 0 0 = 0

/-- R105. Issued twice, it gives the same value twice, since CRCREG is unchanged; right after CRCINIT the value is 0. -/
def Obligations.CrcfinResult : Prop :=
  ∀ rd : Reg, SpelledOnlyBy (.crcfin rd) (0x00000012 ||| field rd 8) ∧
    (∀ s : State, exec (.crcfin rd) s = .next (wroteP s [] rd ((s.crcreg ^^^ 0xFFFFFFFF).setWidth 64))) ∧
    ∀ s : State, exec (.crcfin rd) { s with crcreg := 0xFFFFFFFF } = .next (wroteP { s with crcreg := 0xFFFFFFFF } [] rd 0)

/-- R106. CRCSTRM checks in order that a stream is attached, fits and can be read, and that no byte from CURSOR to SLEN-1
faults; each failure leaves everything but STATUS. Otherwise it answers the CRC-32 of exactly those bytes and leaves CURSOR
at SLEN, or, with nothing to read, writes 0 and leaves CURSOR. SEEK plays no part. -/
def Obligations.CrcstrmResult : Prop :=
  ∀ rd : Reg, SpelledOnlyBy (.crcstrm rd) (0x00000013 ||| field rd 8) ∧
    ∀ s : State,
      (s.scap.present = false → exec (.crcstrm rd) s = .next (failed s [] 0x13 .preNull)) ∧
      (s.scap.present = true → s.cfg.streamCap < s.slen.toNat → exec (.crcstrm rd) s = .next (failed s [] 0x13 .ioRange)) ∧
      (s.scap.present = true → s.slen.toNat ≤ s.cfg.streamCap → s.scap.read = false →
        exec (.crcstrm rd) s = .next (failed s [] 0x13 .ioNoread)) ∧
      (s.scap.present = true → s.slen.toNat ≤ s.cfg.streamCap → s.scap.read = true →
        (∃ a, s.cursor.toNat ≤ a ∧ a < s.slen.toNat ∧ portFault s.cfg .read a = true) →
        exec (.crcstrm rd) s = .next (failed s [] 0x13 .ioPort)) ∧
      (s.scap.present = true → s.slen.toNat ≤ s.cfg.streamCap → s.scap.read = true →
        (∀ a, s.cursor.toNat ≤ a → a < s.slen.toNat → portFault s.cfg .read a = false) →
        exec (.crcstrm rd) s = .next
          { s with
            crcreg := crcReg (s.streamBytes s.cursor.toNat (s.slen.toNat - s.cursor.toNat))
            p := s.p.set rd.val
              ((crc32 (s.streamBytes s.cursor.toNat (s.slen.toNat - s.cursor.toNat))).setWidth 64) rd.isLt
            written := s.written.set rd.val true rd.isLt
            cursor := if s.cursor.toNat < s.slen.toNat then s.slen else s.cursor } ∧
        (s.slen.toNat ≤ s.cursor.toNat →
          exec (.crcstrm rd) s = .next (wroteP { s with crcreg := 0xFFFFFFFF } [] rd 0)))

/-- R101, R102, R107. The table the spec prints is T[n] = fold8(0, n); a table-driven engine gives the same register for
every register and byte; no bytes have checksum 0; "123456789" has 0xCBF43926, and 0x1898913F if each byte were reversed. -/
def Obligations.TableEngineAgrees : Prop :=
  ((List.range 256).map fun n => crcTable (BitVec.ofNat 8 n)) = tableOfR101 ∧
  (∀ (r : Word) (b : Byte), fold8 r b = (r >>> 8) ^^^ crcTable ((r ^^^ b.setWidth 32).setWidth 8)) ∧
  crc32 [] = 0 ∧ crc32 [0x31, 0x32, 0x33, 0x34, 0x35, 0x36, 0x37, 0x38, 0x39] = 0xCBF43926 ∧
  crc32 ([0x31, 0x32, 0x33, 0x34, 0x35, 0x36, 0x37, 0x38, 0x39].map BitVec.reverse) = 0x1898913F

/-- R108. The bit-reversed checksum is the remainder of the message polynomial shifted by 32, plus constants that depend on
the length only; so for two sequences of one length it differs by the remainder of the difference. -/
def Obligations.ChecksumIsPolynomialRemainder : Prop :=
  (∀ m : List Byte,
    (rev32 (crc32 m)).toNat =
      pmod (clmul (messagePoly m) (2 ^ 32) ^^^ clmul 0xFFFFFFFF (2 ^ (8 * m.length))) generator ^^^ 0xFFFFFFFF) ∧
  ∀ m m' : List Byte, m.length = m'.length →
    (rev32 (crc32 m) ^^^ rev32 (crc32 m')).toNat = pmod (clmul (messagePoly m ^^^ messagePoly m') (2 ^ 32)) generator

/-! GF(2) arithmetic. -/

/-- R11. Quotient and remainder by a nonzero polynomial are the only polynomials with a = q·m ⊕ r and deg r < deg m; a
product modulo G is reduced. -/
def Obligations.DivisionIsUnique : Prop :=
  (∀ a m q r : Nat, m ≠ 0 → ((a = clmul q m ^^^ r ∧ deg r < deg m) ↔ (q = pdiv a m ∧ r = pmod a m))) ∧
  ∀ a b : Nat, mulmod a b = pmod (clmul a b) generator ∧ Reduced (mulmod a b)

/-- R121. -/
def Obligations.PaddResult : Prop :=
  ∀ rd rs1 rs2 : Reg, SpelledOnlyBy (.padd rd rs1 rs2) (0x00000020 ||| field rd 8 ||| field rs1 11 ||| field rs2 14) ∧
    (∀ s : State, exec (.padd rd rs1 rs2) s = .next (wroteP s [rs1, rs2] rd (s.p[rs1.val] ^^^ s.p[rs2.val]))) ∧
    ∀ s : State, exec (.padd rd rs1 rs1) s = .next (wroteP s [rs1, rs1] rd 0)

/-- R122. -/
def Obligations.MulmodResult : Prop :=
  (∀ rd rs1 rs2 : Reg, SpelledOnlyBy (.mulmod rd rs1 rs2) (0x00000021 ||| field rd 8 ||| field rs1 11 ||| field rs2 14) ∧
    ∀ s : State, exec (.mulmod rd rs1 rs2) s = .next (wroteP s [rs1, rs2] rd
      (BitVec.ofNat 64 (pmod (clmul s.p[rs1.val].toNat s.p[rs2.val].toNat) generator)))) ∧
  (∀ x y : Nat, Reduced (mulmod x y) ∧ mulmod x y = mulmod y x ∧ mulmod 0 y = 0 ∧ mulmod x 0 = 0 ∧ mulmod generator y = 0) ∧
  mulmod (2 ^ 32) 1 = 0x04C11DB7

/-- R124. -/
def Obligations.PowmodResult : Prop :=
  (∀ rd rs1 rs2 : Reg, SpelledOnlyBy (.powmod rd rs1 rs2) (0x00000022 ||| field rd 8 ||| field rs1 11 ||| field rs2 14) ∧
    ∀ s : State, exec (.powmod rd rs1 rs2) s =
      .next (wroteP s [rs1, rs2] rd (BitVec.ofNat 64 (powmod s.p[rs1.val].toNat s.p[rs2.val].toNat)))) ∧
  ∀ x : Nat, powmod x 0 = 1 ∧ powmod x 1 = pmod x generator ∧
    (∀ y, y < 2 ^ 64 → Reduced (powmod x y)) ∧
    (pmod x generator = 0 → ∀ y, 1 ≤ y → y < 2 ^ 64 → powmod x y = 0) ∧
    ∀ y, y + 1 < 2 ^ 64 → powmod x (y + 1) = mulmod (powmod x y) x

/-- R126. A zero divisor raises ARI_DIV0, whatever the dividend; otherwise Prd gets the quotient and then Prx the remainder,
the pair of R11. -/
def Obligations.DivremResult : Prop :=
  ∀ rd rx rs1 rs2 : Reg,
    SpelledOnlyBy (.divrem rd rx rs1 rs2) (0x00000023 ||| field rd 8 ||| field rs1 11 ||| field rs2 14 ||| field rx 17) ∧
    ∀ s : State,
      (s.p[rs2.val] = 0 → exec (.divrem rd rx rs1 rs2) s = .next (failed s [rs1, rs2] 0x23 .ariDiv0)) ∧
      (s.p[rs2.val] ≠ 0 → ∃ q r : DWord,
        s.p[rs1.val].toNat = clmul q.toNat s.p[rs2.val].toNat ^^^ r.toNat ∧ deg r.toNat < deg s.p[rs2.val].toNat ∧
        (deg s.p[rs1.val].toNat < deg s.p[rs2.val].toNat → q = 0 ∧ r = s.p[rs1.val]) ∧
        (s.p[rs2.val] = 1 → q = s.p[rs1.val] ∧ r = 0) ∧
        exec (.divrem rd rx rs1 rs2) s = .next
          { s with
            p := (s.p.set rd.val q rd.isLt).set rx.val r rx.isLt
            written := (s.written.set rd.val true rd.isLt).set rx.val true rx.isLt
            uninitRead := readMark s [rs1, rs2] })

/-- R128, R129. RECIP fails exactly when its operand is congruent to 0, and otherwise gives the one reduced polynomial whose
product with the operand is 1, which is that of the reduced operand too. Its loop ends within 34 rounds. -/
def Obligations.RecipResult : Prop :=
  (∀ rd rs1 : Reg, SpelledOnlyBy (.recip rd rs1) (0x00000024 ||| field rd 8 ||| field rs1 11) ∧
    ∀ s : State,
      (pmod s.p[rs1.val].toNat generator = 0 → exec (.recip rd rs1) s = .next (failed s [rs1] 0x24 .ariNorecip)) ∧
      (pmod s.p[rs1.val].toNat generator ≠ 0 → ∃ v : Nat, Reduced v ∧ mulmod s.p[rs1.val].toNat v = 1 ∧
        (∀ u, Reduced u → mulmod s.p[rs1.val].toNat u = 1 → u = v) ∧
        recip (pmod s.p[rs1.val].toNat generator) = some v ∧
        exec (.recip rd rs1) s = .next (wroteP s [rs1] rd (BitVec.ofNat 64 v)))) ∧
  ∀ x n : Nat, x < 2 ^ 64 → 34 ≤ n → euclid n generator x 0 1 = euclid 34 generator x 0 1

/-- R127. -/
def Obligations.DegreeResult : Prop :=
  ∀ rd rs1 : Reg, SpelledOnlyBy (.degree rd rs1) (0x00000025 ||| field rd 8 ||| field rs1 11) ∧
    ∀ s : State,
      (s.p[rs1.val] = 0 → exec (.degree rd rs1) s = .next (wroteP s [rs1] rd 0xFFFFFFFFFFFFFFFF)) ∧
      (s.p[rs1.val] ≠ 0 → ∃ i : Nat, i < 64 ∧ s.p[rs1.val].getLsbD i = true ∧
        (∀ j, i < j → s.p[rs1.val].getLsbD j = false) ∧
        exec (.degree rd rs1) s = .next (wroteP s [rs1] rd (BitVec.ofNat 64 i)))

/-- R130, R12. -/
def Obligations.Rev32Result : Prop :=
  (∀ rd rs1 : Reg, SpelledOnlyBy (.rev32 rd rs1) (0x00000026 ||| field rd 8 ||| field rs1 11) ∧
    ∀ s : State, ∃ v : Word, (∀ i, i < 32 → v.getLsbD i = s.p[rs1.val].getLsbD (31 - i)) ∧
      rev32 v = s.p[rs1.val].setWidth 32 ∧ exec (.rev32 rd rs1) s = .next (wroteP s [rs1] rd (v.setWidth 64))) ∧
  rev32 0xEDB88320 = 0x04C11DB7

/-- R123. The source's loop gives the hardware's product when its first operand is reduced; otherwise only a value congruent
to it, G itself for G times 1. -/
def Obligations.SourceLoopAgreesWhenReduced : Prop :=
  (∀ x y : Nat, Reduced x → mulmodLoop x y = mulmod x y) ∧
  (∀ x y : Nat, pmod (mulmodLoop x y) generator = mulmod x y) ∧ mulmodLoop generator 1 = generator

/-- R125. The source's literal square-and-multiply over unbounded integers gives POWMOD's result for every base and 64-bit
exponent. -/
def Obligations.LiteralPowerAgrees : Prop :=
  ∀ x y : Nat, y < 2 ^ 64 → powmodLoop x y = powmod x y

/-- R131, laws 1, 2, 4 and 6. -/
def Obligations.ProductAndPowerLaws : Prop :=
  (∀ a b c : Nat, mulmod a b = mulmod b a ∧ mulmod (mulmod a b) c = mulmod a (mulmod b c) ∧
    mulmod (a ^^^ b) c = mulmod a c ^^^ mulmod b c ∧ mulmod a 1 = pmod a generator) ∧
  (∀ x y z : Nat, y + z < 2 ^ 64 → powmod x (y + z) = mulmod (powmod x y) (powmod x z)) ∧
  ∀ x y : Nat, pmod x generator = 0 → 1 ≤ y → y < 2 ^ 64 → powmod x y = 0

/-- R131, laws 3 and 5. The polynomial x has order 2^32 − 1 modulo G, no power of it is 0, and every nonzero reduced
polynomial has an inverse. -/
def Obligations.GeneratorIsPrimitive : Prop :=
  powmod 2 (2 ^ 32 - 1) = 1 ∧ (∀ y, 0 < y → y < 2 ^ 32 - 1 → powmod 2 y ≠ 1) ∧
  (∀ y, y < 2 ^ 64 → powmod 2 y = powmod 2 (y % (2 ^ 32 - 1)) ∧ powmod 2 y ≠ 0) ∧
  ∀ a, Reduced a → a ≠ 0 → ∃ b, Reduced b ∧ mulmod a b = 1

/-- R120. What the GF(2) commands have in common: they neither read nor write CRCREG, CURSOR, SLEN, SCAP or the stream; no
register but a destination changes; STATUS is unchanged, or records ARI_DIV0 from DIVREM or ARI_NORECIP from RECIP, and then
no register has changed. -/
def Obligations.Gf2CommandsTouchOnlyDestinations : Prop :=
  ∀ (i : Instr) (s t : State), isGf2 i = true → exec i s = .next t →
    t.crcreg = s.crcreg ∧ t.cursor = s.cursor ∧ t.slen = s.slen ∧ t.scap = s.scap ∧ t.stream = s.stream ∧
    (∀ q : Reg, q ∉ dests i → t.p[q.val] = s.p[q.val]) ∧
    (t.status = s.status ∨
      (t.p = s.p ∧ t.written = s.written ∧
        (((∃ rd rx rs1 rs2, i = .divrem rd rx rs1 rs2) ∧ t.status = ⟨s.status.skip, 2, 0x21, i.opcode⟩) ∨
          ((∃ rd rs1, i = .recip rd rs1) ∧ t.status = ⟨s.status.skip, 2, 0x22, i.opcode⟩)))) ∧
    ∀ (r : Word) (cur len : DWord) (c : Scap) (m : Memory),
      exec i { s with crcreg := r, cursor := cur, slen := len, scap := c, stream := m } =
        .next { t with crcreg := r, cursor := cur, slen := len, scap := c, stream := m }

/-! The deriver. -/

/-- R152. A power of x is never 0 and always has an inverse, for every 64-bit count. -/
def Obligations.PowerOfXIsInvertible : Prop :=
  ∀ tb : Nat, tb < 2 ^ 64 → powmod 2 tb ≠ 0 ∧ ∃ v, recip (powmod 2 tb) = some v ∧ mulmod (powmod 2 tb) v = 1

/-- R151. DELTA never fails. Its result is R150's, the one reduced polynomial that times x^tb is the raw delta; equal CRCs
give 0, and a count of 0 the raw delta itself. -/
def Obligations.DeltaResult : Prop :=
  ∀ rd rs1 rs2 rx : Reg,
    SpelledOnlyBy (.delta rd rs1 rs2 rx) (0x00000030 ||| field rd 8 ||| field rs1 11 ||| field rs2 14 ||| field rx 17) ∧
    ∀ s : State, ∃ m : Nat, Reduced m ∧
      magicOf (s.p[rs1.val].setWidth 32) (s.p[rs2.val].setWidth 32) s.p[rx.val].toNat = some m ∧
      mulmod m (powmod 2 s.p[rx.val].toNat) =
        (rev32 (s.p[rs1.val].setWidth 32) ^^^ rev32 (s.p[rs2.val].setWidth 32)).toNat ∧
      (s.p[rs1.val].setWidth 32 = s.p[rs2.val].setWidth 32 → m = 0) ∧
      (s.p[rx.val] = 0 → m = (rev32 (s.p[rs1.val].setWidth 32) ^^^ rev32 (s.p[rs2.val].setWidth 32)).toNat) ∧
      exec (.delta rd rs1 rs2 rx) s = .next (wroteP s [rs1, rs2, rx] rd (BitVec.ofNat 64 m))

/-- R154, R156. The table of accepted offsets, with the resolved offset of each; a resolved offset lies in [0, L − 4], and
the tail bits are a multiple of 8 between 32 and 2^63. -/
def Obligations.OffsetsResolve : Prop :=
  ∀ (off : Int) (L : Nat), 1 ≤ L →
    (off = -1 → resolveOffset off L = some .append) ∧
    (0 ≤ off → off ≤ (L : Int) - 4 → ∃ ro : Nat, (ro : Int) = off ∧ resolveOffset off L = some (.inPlace ro)) ∧
    (-(L : Int) ≤ off → off ≤ -4 → ∃ ro : Nat, (ro : Int) = L + off ∧ resolveOffset off L = some (.inPlace ro)) ∧
    (off ≠ -1 → ¬(0 ≤ off ∧ off ≤ (L : Int) - 4) → ¬(-(L : Int) ≤ off ∧ off ≤ -4) → resolveOffset off L = none) ∧
    (∀ ro : Nat, resolveOffset off L = some (.inPlace ro) → L ≤ 2 ^ 60 →
      ro + 4 ≤ L ∧ 32 ≤ (L - ro) * 8 ∧ (L - ro) * 8 ≤ 2 ^ 63 ∧ (L - ro) * 8 % 8 = 0)

/-- R153, R155 (first row), R186. DERIVE reports the first of its checks that fails, in the spec's order, and then leaves
everything but STATUS as it was. (In append mode no earlier magic delta is good any more: `issued`, the model's own field.) -/
def Obligations.DeriveChecksInOrder : Prop :=
  ∀ (rd rx rs1 rs2 : Reg) (s : State) (c : Cause), deriveFirstError s s.p[rs2.val].toInt = some c →
    exec (.derive rd rx rs1 rs2) s = .next (failed (issued s rs2) [rs1, rs2] 0x31 c)

/-- R153, in place. With a stream attached, readable and seekable, of 4 or more bytes that fits the stream space and whose
bytes all read without fault, and an accepted offset that resolves to ro, DERIVE answers the magic delta of the whole
stream's CRC, whatever CURSOR held, and then ro. It writes no stream byte and does not need WRITE. -/
def Obligations.DeriveInPlaceResult : Prop :=
  ∀ (rd rx rs1 rs2 : Reg) (s : State) (ro : Nat),
    s.scap.present = true → s.scap.read = true → s.scap.seek = true → s.slen.toNat ≤ s.cfg.streamCap →
    ro + 4 ≤ s.slen.toNat → (s.p[rs2.val].toInt = ro ∨ s.p[rs2.val].toInt = (ro : Int) - s.slen.toNat) →
    (∀ a, a < s.slen.toNat → portFault s.cfg .read a = false) → s.slen.toNat ≤ 2 ^ 60 →
      ∃ m : Nat, Reduced m ∧
        magicOf (crc32 s.streamContents) (s.p[rs1.val].setWidth 32) ((s.slen.toNat - ro) * 8) = some m ∧
        exec (.derive rd rx rs1 rs2) s = .next (derived s rd rx rs1 rs2 s.streamContents m ro)

/-- R153, append. With a stream attached, not empty, readable, writable and seekable, with room for four more bytes and no
fault on any access, and the offset APPEND, DERIVE first writes four zero bytes past the end and adds 4 to SLEN, then answers
the magic delta of the extended stream's CRC for 32 tail bits, and the old length as the resolved offset. No other byte
changes. -/
def Obligations.DeriveAppendResult : Prop :=
  ∀ (rd rx rs1 rs2 : Reg) (s : State), s.cfg.wf →
    s.scap.present = true → s.scap.read = true → s.scap.write = true → s.scap.seek = true →
    1 ≤ s.slen.toNat → s.slen.toNat + 4 ≤ s.cfg.streamCap → s.p[rs2.val].toInt = -1 →
    (∀ a, s.slen.toNat ≤ a → a < s.slen.toNat + 4 → portFault s.cfg .write a = false) →
    (∀ a, a < s.slen.toNat + 4 → portFault s.cfg .read a = false) →
      ∃ m t, Reduced m ∧ magicOf (crc32 (s.streamContents ++ [0, 0, 0, 0])) (s.p[rs1.val].setWidth 32) 32 = some m ∧
        exec (.derive rd rx rs1 rs2) s = .next t ∧
        t = derived { s with slen := t.slen, stream := t.stream } rd rx rs1 rs2 (s.streamContents ++ [0, 0, 0, 0]) m
          s.slen.toNat ∧
        t.slen.toNat = s.slen.toNat + 4 ∧
        ∀ a, t.streamByte a = if s.slen.toNat ≤ a ∧ a < s.slen.toNat + 4 then 0 else s.streamByte a

/-- R155, second to fourth rows. When a stream access of a DERIVE that passed its checks faults, IO_PORT is recorded and no
register but SLEN changes. If the append write faults, SLEN is unchanged and only bytes L .. L+3 may differ; if a read
faults in place, SLEN and every byte are unchanged; if a read faults in append mode, SLEN is 4 more and bytes L .. L+3 are
0. -/
def Obligations.DerivePortFaultLeaves : Prop :=
  ∀ (rd rx rs1 rs2 : Reg) (s : State), s.cfg.wf → deriveFirstError s s.p[rs2.val].toInt = none →
    (s.p[rs2.val].toInt = -1 →
      (∃ a, s.slen.toNat ≤ a ∧ a < s.slen.toNat + 4 ∧ portFault s.cfg .write a = true) →
      ∃ t, exec (.derive rd rx rs1 rs2) s = .next t ∧
        t = { failed (issued s rs2) [rs1, rs2] 0x31 .ioPort with stream := t.stream, draws := t.draws } ∧
        ∀ a, a < s.slen.toNat ∨ s.slen.toNat + 4 ≤ a → t.streamByte a = s.streamByte a) ∧
    (s.p[rs2.val].toInt ≠ -1 → (∃ a, a < s.slen.toNat ∧ portFault s.cfg .read a = true) →
      exec (.derive rd rx rs1 rs2) s = .next (failed (issued s rs2) [rs1, rs2] 0x31 .ioPort)) ∧
    (s.p[rs2.val].toInt = -1 →
      (∀ a, s.slen.toNat ≤ a → a < s.slen.toNat + 4 → portFault s.cfg .write a = false) →
      (∃ a, a < s.slen.toNat + 4 ∧ portFault s.cfg .read a = true) →
      ∃ t, exec (.derive rd rx rs1 rs2) s = .next t ∧
        t = { failed (issued s rs2) [rs1, rs2] 0x31 .ioPort with stream := t.stream, slen := t.slen } ∧
        t.slen.toNat = s.slen.toNat + 4 ∧
        ∀ a, t.streamByte a = if s.slen.toNat ≤ a ∧ a < s.slen.toNat + 4 then 0 else s.streamByte a)

/-- R157. After a successful DERIVE, a DELTA of its current CRC, its desired CRC and its tail bits, from whatever registers
hold them and in whatever state, gives the same magic delta m. That is what Prd holds, unless rd = rx, where the resolved
offset was written over it. -/
def Obligations.DeltaReproducesDerive : Prop :=
  ∀ (rd rx rs1 rs2 : Reg) (s t : State), DeriveSucceeds s rd rx rs1 rs2 t →
    ∃ m : DWord, (rd ≠ rx → t.p[rd.val] = m) ∧ m.toNat < 2 ^ 32 ∧
      ∀ (d a b c : Reg) (u : State), u.p[a.val].setWidth 32 = t.crcreg ^^^ 0xFFFFFFFF →
        u.p[b.val].setWidth 32 = s.p[rs1.val].setWidth 32 →
        u.p[c.val].toNat = (t.slen.toNat - t.p[rx.val].toNat) * 8 →
        exec (.delta d a b c) u = .next (wroteP u [a, b, c] d m)

/-! The patch boundary. -/

/-- R160. The host's four stream writes, made on an idle core, XOR byte k of the patch word, counted from the least
significant, into stream byte ro + k, and change nothing else. (Below SLEN no magic delta is good after them: log entry 10.) -/
def Obligations.HostPatchWritesFourBytes : Prop :=
  ∀ (s : State) (ro : Nat) (w : Word) (rest : List Input), s.cfg.wf → Idle s → ro + 4 ≤ s.cfg.streamCap →
    s.inputs = s.patchInputs ro w ++ rest →
      ∃ t : State, Host.Core.run Sys2Proof.core 4 s = .next t ∧ t = { s with
          inputs := rest, stream := t.stream, derivations := if ro < s.slen.toNat then [] else s.derivations } ∧
        (∀ k, k < 4 → t.streamByte (ro + k) = s.streamByte (ro + k) ^^^ w.extractLsb' (8 * k) 8) ∧
        (∀ a, a < ro ∨ ro + 4 ≤ a → t.streamByte a = s.streamByte a) ∧
        ∀ a, t.streamByte a = (s.hostPatch ro w).streamByte a

/-- R161. Round trip: after a successful DERIVE, with m its magic delta and ro the resolved offset, and the host's patch with
the word rev32(m) at ro, the checksum of the stream is the desired one. The magic delta is in Prd unless rd = rx, where ro
was written over it. -/
def Obligations.PatchedStreamHasDesiredChecksum : Prop :=
  ∀ (rd rx rs1 rs2 : Reg) (s t : State), DeriveSucceeds s rd rx rs1 rs2 t →
    ∃ m : Nat, (rd ≠ rx → t.p[rd.val].toNat = m) ∧
      magicOf (t.crcreg ^^^ 0xFFFFFFFF) (s.p[rs1.val].setWidth 32) ((t.slen.toNat - t.p[rx.val].toNat) * 8) = some m ∧
      crc32 (t.hostPatch t.p[rx.val].toNat (patchWord m)).streamContents = s.p[rs1.val].setWidth 32

/-- R162, R158. If the desired CRC is already the stream's, after any append, the magic delta is 0 and the patch changes no
byte. In place, DERIVE and the patch change no byte outside ro .. ro+3; in append mode they change none outside L .. L+3,
and ro is L, which is SLEN − 4. -/
def Obligations.PatchIsLocalAndIdempotent : Prop :=
  ∀ (rd rx rs1 rs2 : Reg) (s t : State), DeriveSucceeds s rd rx rs1 rs2 t →
    (crc32 t.streamContents = s.p[rs1.val].setWidth 32 →
      (rd ≠ rx → t.p[rd.val] = 0) ∧
        ∀ a, (t.hostPatch t.p[rx.val].toNat (patchWord 0)).streamByte a = t.streamByte a) ∧
    (s.p[rs2.val].toInt ≠ -1 → ∀ (w : Word) (a : Nat), a < t.p[rx.val].toNat ∨ t.p[rx.val].toNat + 4 ≤ a →
      (t.hostPatch t.p[rx.val].toNat w).streamByte a = s.streamByte a) ∧
    (s.p[rs2.val].toInt = -1 → t.p[rx.val] = s.slen ∧ t.slen.toNat = t.p[rx.val].toNat + 4 ∧
      ∀ (w : Word) (a : Nat), a < s.slen.toNat ∨ s.slen.toNat + 4 ≤ a →
        (t.hostPatch t.p[rx.val].toNat w).streamByte a = s.streamByte a)

/-- R163, R28. A successful DERIVE in append mode adds exactly 4 to SLEN, and the patched stream has the desired checksum; in
place SLEN is unchanged; no command ever decreases SLEN. -/
def Obligations.StreamGrowsByFourOrNot : Prop :=
  (∀ (rd rx rs1 rs2 : Reg) (s t : State), DeriveSucceeds s rd rx rs1 rs2 t →
    (s.p[rs2.val].toInt = -1 → t.slen.toNat = s.slen.toNat + 4 ∧
      (rd ≠ rx → crc32 (t.hostPatch t.p[rx.val].toNat (patchWord t.p[rd.val].toNat)).streamContents =
        s.p[rs1.val].setWidth 32)) ∧
    (s.p[rs2.val].toInt ≠ -1 → t.slen = s.slen)) ∧
  ∀ (i : Instr) (s t : State), s.cfg.wf → exec i s = .next t → s.slen.toNat ≤ t.slen.toNat

/-- R174. On an idle core the host's actions that attach a stream, and nothing more to come, leave exactly that stream
attached: its bytes, its length, its capabilities, the cursor. -/
def Obligations.AttachedStreamIsTheBytes : Prop :=
  ∀ (s : State) (bytes : List Byte) (caps cur : DWord), s.cfg.wf → Idle s → bytes.length ≤ s.cfg.streamCap →
    s.inputs = attachStream bytes caps cur →
      ∃ t : State, Host.Core.run Sys2Proof.core (bytes.length + 3) s = .next t ∧ t.streamContents = bytes ∧
        t.slen.toNat = bytes.length ∧ t.scap.word.toNat = caps.toNat % 16 ∧ t.cursor = cur ∧ t.p = s.p ∧
        t.crcreg = s.crcreg ∧ t.status = s.status ∧ Idle t ∧ t.inputs = []

/-- R164, R175, R217, and the model's choice of the place (log entry 10). The host's patch has a move exactly while the DERIVE
that left its offset and patch word is still good for the stream. A host write below SLEN, one that changes SLEN, a reset, and a
DERIVE in append mode end that for every earlier magic delta; a DERIVE that succeeds leaves its own; no other command touches
it. -/
def Obligations.StaleMagicHasNoMove : Prop :=
  (∀ (s : State) (ro : DWord) (w : Word) (rest : List Input), Idle s → s.inputs = .patch ro w :: rest →
    (⟨ro, w⟩ ∈ s.derivations → step s = .next { s.hostPatch ro.toNat w with inputs := rest, derivations := [] }) ∧
    (⟨ro, w⟩ ∉ s.derivations → step s = .refused .staleMagic)) ∧
  (∀ (s : State) (a : Input) (rest : List Input), Idle s → s.inputs = a :: rest →
    ((∃ x b, a = .streamWrite x b ∧ x.toNat < s.slen.toNat ∧ x.toNat < s.cfg.streamCap) ∨
      (∃ v, a = .windowWrite 0x20 v ∧ v ≠ s.slen) ∨ a = .assertReset) →
    ∃ t, step s = .next t ∧ t.derivations = []) ∧
  (∀ (i : Instr) (s t : State), (∀ rd rx rs1 rs2, i ≠ .derive rd rx rs1 rs2) → exec i s = .next t →
    t.derivations = s.derivations) ∧
  ∀ (rd rx rs1 rs2 : Reg) (s t : State), s.cfg.wf → s.status.err = 0 → exec (.derive rd rx rs1 rs2) s = .next t →
    (t.status.err ≠ 0 → t.derivations = (issued s rs2).derivations) ∧
    (t.status.err = 0 → ∃ m : Nat,
      magicOf (t.crcreg ^^^ 0xFFFFFFFF) (s.p[rs1.val].setWidth 32) ((t.slen.toNat - t.p[rx.val].toNat) * 8) = some m ∧
      t.derivations = ⟨t.p[rx.val], patchWord m⟩ :: (issued s rs2).derivations)
end

