-- ==== Sys2Proof/Laws/State.lean ====
section
/-! SUPPORT. One lemma per field per named update of State, each true by definition, so that no later proof unfolds a record
update; and the operand registers and operand forms read through them. -/

namespace Sys2Proof.Machine

/-! setCrcreg -/

@[simp] theorem State.setCrcreg_p (s : State) (w : Word) : (s.setCrcreg w).p = s.p := rfl
@[simp] theorem State.setCrcreg_crcreg (s : State) (w : Word) : (s.setCrcreg w).crcreg = w := rfl
@[simp] theorem State.setCrcreg_cursor (s : State) (w : Word) : (s.setCrcreg w).cursor = s.cursor := rfl
@[simp] theorem State.setCrcreg_slen (s : State) (w : Word) : (s.setCrcreg w).slen = s.slen := rfl
@[simp] theorem State.setCrcreg_scap (s : State) (w : Word) : (s.setCrcreg w).scap = s.scap := rfl
@[simp] theorem State.setCrcreg_status (s : State) (w : Word) : (s.setCrcreg w).status = s.status := rfl
@[simp] theorem State.setCrcreg_inFlight (s : State) (w : Word) : (s.setCrcreg w).inFlight = s.inFlight := rfl
@[simp] theorem State.setCrcreg_resetHeld (s : State) (w : Word) : (s.setCrcreg w).resetHeld = s.resetHeld := rfl
@[simp] theorem State.setCrcreg_stream (s : State) (w : Word) : (s.setCrcreg w).stream = s.stream := rfl
@[simp] theorem State.setCrcreg_cfg (s : State) (w : Word) : (s.setCrcreg w).cfg = s.cfg := rfl
@[simp] theorem State.setCrcreg_written (s : State) (w : Word) : (s.setCrcreg w).written = s.written := rfl
@[simp] theorem State.setCrcreg_uninitRead (s : State) (w : Word) : (s.setCrcreg w).uninitRead = s.uninitRead := rfl
@[simp] theorem State.setCrcreg_draws (s : State) (w : Word) : (s.setCrcreg w).draws = s.draws := rfl
@[simp] theorem State.setCrcreg_derivations (s : State) (w : Word) : (s.setCrcreg w).derivations = s.derivations := rfl
@[simp] theorem State.setCrcreg_commanded (s : State) (w : Word) : (s.setCrcreg w).commanded = s.commanded := rfl
@[simp] theorem State.setCrcreg_inputs (s : State) (w : Word) : (s.setCrcreg w).inputs = s.inputs := rfl
@[simp] theorem State.setCrcreg_replies (s : State) (w : Word) : (s.setCrcreg w).replies = s.replies := rfl

/-! setCursor -/

@[simp] theorem State.setCursor_p (s : State) (v : DWord) : (s.setCursor v).p = s.p := rfl
@[simp] theorem State.setCursor_crcreg (s : State) (v : DWord) : (s.setCursor v).crcreg = s.crcreg := rfl
@[simp] theorem State.setCursor_cursor (s : State) (v : DWord) : (s.setCursor v).cursor = v := rfl
@[simp] theorem State.setCursor_slen (s : State) (v : DWord) : (s.setCursor v).slen = s.slen := rfl
@[simp] theorem State.setCursor_scap (s : State) (v : DWord) : (s.setCursor v).scap = s.scap := rfl
@[simp] theorem State.setCursor_status (s : State) (v : DWord) : (s.setCursor v).status = s.status := rfl
@[simp] theorem State.setCursor_inFlight (s : State) (v : DWord) : (s.setCursor v).inFlight = s.inFlight := rfl
@[simp] theorem State.setCursor_resetHeld (s : State) (v : DWord) : (s.setCursor v).resetHeld = s.resetHeld := rfl
@[simp] theorem State.setCursor_stream (s : State) (v : DWord) : (s.setCursor v).stream = s.stream := rfl
@[simp] theorem State.setCursor_cfg (s : State) (v : DWord) : (s.setCursor v).cfg = s.cfg := rfl
@[simp] theorem State.setCursor_written (s : State) (v : DWord) : (s.setCursor v).written = s.written := rfl
@[simp] theorem State.setCursor_uninitRead (s : State) (v : DWord) : (s.setCursor v).uninitRead = s.uninitRead := rfl
@[simp] theorem State.setCursor_draws (s : State) (v : DWord) : (s.setCursor v).draws = s.draws := rfl
@[simp] theorem State.setCursor_derivations (s : State) (v : DWord) : (s.setCursor v).derivations = s.derivations := rfl
@[simp] theorem State.setCursor_commanded (s : State) (v : DWord) : (s.setCursor v).commanded = s.commanded := rfl
@[simp] theorem State.setCursor_inputs (s : State) (v : DWord) : (s.setCursor v).inputs = s.inputs := rfl
@[simp] theorem State.setCursor_replies (s : State) (v : DWord) : (s.setCursor v).replies = s.replies := rfl

/-! setSlen -/

@[simp] theorem State.setSlen_p (s : State) (v : DWord) : (s.setSlen v).p = s.p := rfl
@[simp] theorem State.setSlen_crcreg (s : State) (v : DWord) : (s.setSlen v).crcreg = s.crcreg := rfl
@[simp] theorem State.setSlen_cursor (s : State) (v : DWord) : (s.setSlen v).cursor = s.cursor := rfl
@[simp] theorem State.setSlen_slen (s : State) (v : DWord) : (s.setSlen v).slen = v := rfl
@[simp] theorem State.setSlen_scap (s : State) (v : DWord) : (s.setSlen v).scap = s.scap := rfl
@[simp] theorem State.setSlen_status (s : State) (v : DWord) : (s.setSlen v).status = s.status := rfl
@[simp] theorem State.setSlen_inFlight (s : State) (v : DWord) : (s.setSlen v).inFlight = s.inFlight := rfl
@[simp] theorem State.setSlen_resetHeld (s : State) (v : DWord) : (s.setSlen v).resetHeld = s.resetHeld := rfl
@[simp] theorem State.setSlen_stream (s : State) (v : DWord) : (s.setSlen v).stream = s.stream := rfl
@[simp] theorem State.setSlen_cfg (s : State) (v : DWord) : (s.setSlen v).cfg = s.cfg := rfl
@[simp] theorem State.setSlen_written (s : State) (v : DWord) : (s.setSlen v).written = s.written := rfl
@[simp] theorem State.setSlen_uninitRead (s : State) (v : DWord) : (s.setSlen v).uninitRead = s.uninitRead := rfl
@[simp] theorem State.setSlen_draws (s : State) (v : DWord) : (s.setSlen v).draws = s.draws := rfl
@[simp] theorem State.setSlen_derivations (s : State) (v : DWord) : (s.setSlen v).derivations = s.derivations := rfl
@[simp] theorem State.setSlen_commanded (s : State) (v : DWord) : (s.setSlen v).commanded = s.commanded := rfl
@[simp] theorem State.setSlen_inputs (s : State) (v : DWord) : (s.setSlen v).inputs = s.inputs := rfl
@[simp] theorem State.setSlen_replies (s : State) (v : DWord) : (s.setSlen v).replies = s.replies := rfl

/-! setScap -/

@[simp] theorem State.setScap_p (s : State) (c : Scap) : (s.setScap c).p = s.p := rfl
@[simp] theorem State.setScap_crcreg (s : State) (c : Scap) : (s.setScap c).crcreg = s.crcreg := rfl
@[simp] theorem State.setScap_cursor (s : State) (c : Scap) : (s.setScap c).cursor = s.cursor := rfl
@[simp] theorem State.setScap_slen (s : State) (c : Scap) : (s.setScap c).slen = s.slen := rfl
@[simp] theorem State.setScap_scap (s : State) (c : Scap) : (s.setScap c).scap = c := rfl
@[simp] theorem State.setScap_status (s : State) (c : Scap) : (s.setScap c).status = s.status := rfl
@[simp] theorem State.setScap_inFlight (s : State) (c : Scap) : (s.setScap c).inFlight = s.inFlight := rfl
@[simp] theorem State.setScap_resetHeld (s : State) (c : Scap) : (s.setScap c).resetHeld = s.resetHeld := rfl
@[simp] theorem State.setScap_stream (s : State) (c : Scap) : (s.setScap c).stream = s.stream := rfl
@[simp] theorem State.setScap_cfg (s : State) (c : Scap) : (s.setScap c).cfg = s.cfg := rfl
@[simp] theorem State.setScap_written (s : State) (c : Scap) : (s.setScap c).written = s.written := rfl
@[simp] theorem State.setScap_uninitRead (s : State) (c : Scap) : (s.setScap c).uninitRead = s.uninitRead := rfl
@[simp] theorem State.setScap_draws (s : State) (c : Scap) : (s.setScap c).draws = s.draws := rfl
@[simp] theorem State.setScap_derivations (s : State) (c : Scap) : (s.setScap c).derivations = s.derivations := rfl
@[simp] theorem State.setScap_commanded (s : State) (c : Scap) : (s.setScap c).commanded = s.commanded := rfl
@[simp] theorem State.setScap_inputs (s : State) (c : Scap) : (s.setScap c).inputs = s.inputs := rfl
@[simp] theorem State.setScap_replies (s : State) (c : Scap) : (s.setScap c).replies = s.replies := rfl

/-! setStatus -/

@[simp] theorem State.setStatus_p (s : State) (st : Status) : (s.setStatus st).p = s.p := rfl
@[simp] theorem State.setStatus_crcreg (s : State) (st : Status) : (s.setStatus st).crcreg = s.crcreg := rfl
@[simp] theorem State.setStatus_cursor (s : State) (st : Status) : (s.setStatus st).cursor = s.cursor := rfl
@[simp] theorem State.setStatus_slen (s : State) (st : Status) : (s.setStatus st).slen = s.slen := rfl
@[simp] theorem State.setStatus_scap (s : State) (st : Status) : (s.setStatus st).scap = s.scap := rfl
@[simp] theorem State.setStatus_status (s : State) (st : Status) : (s.setStatus st).status = st := rfl
@[simp] theorem State.setStatus_inFlight (s : State) (st : Status) : (s.setStatus st).inFlight = s.inFlight := rfl
@[simp] theorem State.setStatus_resetHeld (s : State) (st : Status) : (s.setStatus st).resetHeld = s.resetHeld := rfl
@[simp] theorem State.setStatus_stream (s : State) (st : Status) : (s.setStatus st).stream = s.stream := rfl
@[simp] theorem State.setStatus_cfg (s : State) (st : Status) : (s.setStatus st).cfg = s.cfg := rfl
@[simp] theorem State.setStatus_written (s : State) (st : Status) : (s.setStatus st).written = s.written := rfl
@[simp] theorem State.setStatus_uninitRead (s : State) (st : Status) : (s.setStatus st).uninitRead = s.uninitRead := rfl
@[simp] theorem State.setStatus_draws (s : State) (st : Status) : (s.setStatus st).draws = s.draws := rfl
@[simp] theorem State.setStatus_derivations (s : State) (st : Status) : (s.setStatus st).derivations = s.derivations := rfl
@[simp] theorem State.setStatus_commanded (s : State) (st : Status) : (s.setStatus st).commanded = s.commanded := rfl
@[simp] theorem State.setStatus_inputs (s : State) (st : Status) : (s.setStatus st).inputs = s.inputs := rfl
@[simp] theorem State.setStatus_replies (s : State) (st : Status) : (s.setStatus st).replies = s.replies := rfl

/-! setInFlight -/

@[simp] theorem State.setInFlight_p (s : State) (w : Option Word) : (s.setInFlight w).p = s.p := rfl
@[simp] theorem State.setInFlight_crcreg (s : State) (w : Option Word) : (s.setInFlight w).crcreg = s.crcreg := rfl
@[simp] theorem State.setInFlight_cursor (s : State) (w : Option Word) : (s.setInFlight w).cursor = s.cursor := rfl
@[simp] theorem State.setInFlight_slen (s : State) (w : Option Word) : (s.setInFlight w).slen = s.slen := rfl
@[simp] theorem State.setInFlight_scap (s : State) (w : Option Word) : (s.setInFlight w).scap = s.scap := rfl
@[simp] theorem State.setInFlight_status (s : State) (w : Option Word) : (s.setInFlight w).status = s.status := rfl
@[simp] theorem State.setInFlight_inFlight (s : State) (w : Option Word) : (s.setInFlight w).inFlight = w := rfl
@[simp] theorem State.setInFlight_resetHeld (s : State) (w : Option Word) : (s.setInFlight w).resetHeld = s.resetHeld := rfl
@[simp] theorem State.setInFlight_stream (s : State) (w : Option Word) : (s.setInFlight w).stream = s.stream := rfl
@[simp] theorem State.setInFlight_cfg (s : State) (w : Option Word) : (s.setInFlight w).cfg = s.cfg := rfl
@[simp] theorem State.setInFlight_written (s : State) (w : Option Word) : (s.setInFlight w).written = s.written := rfl
@[simp] theorem State.setInFlight_uninitRead (s : State) (w : Option Word) : (s.setInFlight w).uninitRead = s.uninitRead := rfl
@[simp] theorem State.setInFlight_draws (s : State) (w : Option Word) : (s.setInFlight w).draws = s.draws := rfl
@[simp] theorem State.setInFlight_derivations (s : State) (w : Option Word) : (s.setInFlight w).derivations = s.derivations := rfl
@[simp] theorem State.setInFlight_commanded (s : State) (w : Option Word) : (s.setInFlight w).commanded = s.commanded := rfl
@[simp] theorem State.setInFlight_inputs (s : State) (w : Option Word) : (s.setInFlight w).inputs = s.inputs := rfl
@[simp] theorem State.setInFlight_replies (s : State) (w : Option Word) : (s.setInFlight w).replies = s.replies := rfl

/-! setResetHeld -/

@[simp] theorem State.setResetHeld_p (s : State) (b : Bool) : (s.setResetHeld b).p = s.p := rfl
@[simp] theorem State.setResetHeld_crcreg (s : State) (b : Bool) : (s.setResetHeld b).crcreg = s.crcreg := rfl
@[simp] theorem State.setResetHeld_cursor (s : State) (b : Bool) : (s.setResetHeld b).cursor = s.cursor := rfl
@[simp] theorem State.setResetHeld_slen (s : State) (b : Bool) : (s.setResetHeld b).slen = s.slen := rfl
@[simp] theorem State.setResetHeld_scap (s : State) (b : Bool) : (s.setResetHeld b).scap = s.scap := rfl
@[simp] theorem State.setResetHeld_status (s : State) (b : Bool) : (s.setResetHeld b).status = s.status := rfl
@[simp] theorem State.setResetHeld_inFlight (s : State) (b : Bool) : (s.setResetHeld b).inFlight = s.inFlight := rfl
@[simp] theorem State.setResetHeld_resetHeld (s : State) (b : Bool) : (s.setResetHeld b).resetHeld = b := rfl
@[simp] theorem State.setResetHeld_stream (s : State) (b : Bool) : (s.setResetHeld b).stream = s.stream := rfl
@[simp] theorem State.setResetHeld_cfg (s : State) (b : Bool) : (s.setResetHeld b).cfg = s.cfg := rfl
@[simp] theorem State.setResetHeld_written (s : State) (b : Bool) : (s.setResetHeld b).written = s.written := rfl
@[simp] theorem State.setResetHeld_uninitRead (s : State) (b : Bool) : (s.setResetHeld b).uninitRead = s.uninitRead := rfl
@[simp] theorem State.setResetHeld_draws (s : State) (b : Bool) : (s.setResetHeld b).draws = s.draws := rfl
@[simp] theorem State.setResetHeld_derivations (s : State) (b : Bool) : (s.setResetHeld b).derivations = s.derivations := rfl
@[simp] theorem State.setResetHeld_commanded (s : State) (b : Bool) : (s.setResetHeld b).commanded = s.commanded := rfl
@[simp] theorem State.setResetHeld_inputs (s : State) (b : Bool) : (s.setResetHeld b).inputs = s.inputs := rfl
@[simp] theorem State.setResetHeld_replies (s : State) (b : Bool) : (s.setResetHeld b).replies = s.replies := rfl

/-! setStream -/

@[simp] theorem State.setStream_p (s : State) (m : Memory) : (s.setStream m).p = s.p := rfl
@[simp] theorem State.setStream_crcreg (s : State) (m : Memory) : (s.setStream m).crcreg = s.crcreg := rfl
@[simp] theorem State.setStream_cursor (s : State) (m : Memory) : (s.setStream m).cursor = s.cursor := rfl
@[simp] theorem State.setStream_slen (s : State) (m : Memory) : (s.setStream m).slen = s.slen := rfl
@[simp] theorem State.setStream_scap (s : State) (m : Memory) : (s.setStream m).scap = s.scap := rfl
@[simp] theorem State.setStream_status (s : State) (m : Memory) : (s.setStream m).status = s.status := rfl
@[simp] theorem State.setStream_inFlight (s : State) (m : Memory) : (s.setStream m).inFlight = s.inFlight := rfl
@[simp] theorem State.setStream_resetHeld (s : State) (m : Memory) : (s.setStream m).resetHeld = s.resetHeld := rfl
@[simp] theorem State.setStream_stream (s : State) (m : Memory) : (s.setStream m).stream = m := rfl
@[simp] theorem State.setStream_cfg (s : State) (m : Memory) : (s.setStream m).cfg = s.cfg := rfl
@[simp] theorem State.setStream_written (s : State) (m : Memory) : (s.setStream m).written = s.written := rfl
@[simp] theorem State.setStream_uninitRead (s : State) (m : Memory) : (s.setStream m).uninitRead = s.uninitRead := rfl
@[simp] theorem State.setStream_draws (s : State) (m : Memory) : (s.setStream m).draws = s.draws := rfl
@[simp] theorem State.setStream_derivations (s : State) (m : Memory) : (s.setStream m).derivations = s.derivations := rfl
@[simp] theorem State.setStream_commanded (s : State) (m : Memory) : (s.setStream m).commanded = s.commanded := rfl
@[simp] theorem State.setStream_inputs (s : State) (m : Memory) : (s.setStream m).inputs = s.inputs := rfl
@[simp] theorem State.setStream_replies (s : State) (m : Memory) : (s.setStream m).replies = s.replies := rfl

/-! setDraws -/

@[simp] theorem State.setDraws_p (s : State) (n : Nat) : (s.setDraws n).p = s.p := rfl
@[simp] theorem State.setDraws_crcreg (s : State) (n : Nat) : (s.setDraws n).crcreg = s.crcreg := rfl
@[simp] theorem State.setDraws_cursor (s : State) (n : Nat) : (s.setDraws n).cursor = s.cursor := rfl
@[simp] theorem State.setDraws_slen (s : State) (n : Nat) : (s.setDraws n).slen = s.slen := rfl
@[simp] theorem State.setDraws_scap (s : State) (n : Nat) : (s.setDraws n).scap = s.scap := rfl
@[simp] theorem State.setDraws_status (s : State) (n : Nat) : (s.setDraws n).status = s.status := rfl
@[simp] theorem State.setDraws_inFlight (s : State) (n : Nat) : (s.setDraws n).inFlight = s.inFlight := rfl
@[simp] theorem State.setDraws_resetHeld (s : State) (n : Nat) : (s.setDraws n).resetHeld = s.resetHeld := rfl
@[simp] theorem State.setDraws_stream (s : State) (n : Nat) : (s.setDraws n).stream = s.stream := rfl
@[simp] theorem State.setDraws_cfg (s : State) (n : Nat) : (s.setDraws n).cfg = s.cfg := rfl
@[simp] theorem State.setDraws_written (s : State) (n : Nat) : (s.setDraws n).written = s.written := rfl
@[simp] theorem State.setDraws_uninitRead (s : State) (n : Nat) : (s.setDraws n).uninitRead = s.uninitRead := rfl
@[simp] theorem State.setDraws_draws (s : State) (n : Nat) : (s.setDraws n).draws = n := rfl
@[simp] theorem State.setDraws_derivations (s : State) (n : Nat) : (s.setDraws n).derivations = s.derivations := rfl
@[simp] theorem State.setDraws_commanded (s : State) (n : Nat) : (s.setDraws n).commanded = s.commanded := rfl
@[simp] theorem State.setDraws_inputs (s : State) (n : Nat) : (s.setDraws n).inputs = s.inputs := rfl
@[simp] theorem State.setDraws_replies (s : State) (n : Nat) : (s.setDraws n).replies = s.replies := rfl

/-! setDerivations -/

@[simp] theorem State.setDerivations_p (s : State) (l : List Derivation) : (s.setDerivations l).p = s.p := rfl
@[simp] theorem State.setDerivations_crcreg (s : State) (l : List Derivation) : (s.setDerivations l).crcreg = s.crcreg := rfl
@[simp] theorem State.setDerivations_cursor (s : State) (l : List Derivation) : (s.setDerivations l).cursor = s.cursor := rfl
@[simp] theorem State.setDerivations_slen (s : State) (l : List Derivation) : (s.setDerivations l).slen = s.slen := rfl
@[simp] theorem State.setDerivations_scap (s : State) (l : List Derivation) : (s.setDerivations l).scap = s.scap := rfl
@[simp] theorem State.setDerivations_status (s : State) (l : List Derivation) : (s.setDerivations l).status = s.status := rfl
@[simp] theorem State.setDerivations_inFlight (s : State) (l : List Derivation) : (s.setDerivations l).inFlight = s.inFlight := rfl
@[simp] theorem State.setDerivations_resetHeld (s : State) (l : List Derivation) : (s.setDerivations l).resetHeld = s.resetHeld := rfl
@[simp] theorem State.setDerivations_stream (s : State) (l : List Derivation) : (s.setDerivations l).stream = s.stream := rfl
@[simp] theorem State.setDerivations_cfg (s : State) (l : List Derivation) : (s.setDerivations l).cfg = s.cfg := rfl
@[simp] theorem State.setDerivations_written (s : State) (l : List Derivation) : (s.setDerivations l).written = s.written := rfl
@[simp] theorem State.setDerivations_uninitRead (s : State) (l : List Derivation) : (s.setDerivations l).uninitRead = s.uninitRead := rfl
@[simp] theorem State.setDerivations_draws (s : State) (l : List Derivation) : (s.setDerivations l).draws = s.draws := rfl
@[simp] theorem State.setDerivations_derivations (s : State) (l : List Derivation) : (s.setDerivations l).derivations = l := rfl
@[simp] theorem State.setDerivations_commanded (s : State) (l : List Derivation) : (s.setDerivations l).commanded = s.commanded := rfl
@[simp] theorem State.setDerivations_inputs (s : State) (l : List Derivation) : (s.setDerivations l).inputs = s.inputs := rfl
@[simp] theorem State.setDerivations_replies (s : State) (l : List Derivation) : (s.setDerivations l).replies = s.replies := rfl

/-! setCommanded -/

@[simp] theorem State.setCommanded_p (s : State) (b : Bool) : (s.setCommanded b).p = s.p := rfl
@[simp] theorem State.setCommanded_crcreg (s : State) (b : Bool) : (s.setCommanded b).crcreg = s.crcreg := rfl
@[simp] theorem State.setCommanded_cursor (s : State) (b : Bool) : (s.setCommanded b).cursor = s.cursor := rfl
@[simp] theorem State.setCommanded_slen (s : State) (b : Bool) : (s.setCommanded b).slen = s.slen := rfl
@[simp] theorem State.setCommanded_scap (s : State) (b : Bool) : (s.setCommanded b).scap = s.scap := rfl
@[simp] theorem State.setCommanded_status (s : State) (b : Bool) : (s.setCommanded b).status = s.status := rfl
@[simp] theorem State.setCommanded_inFlight (s : State) (b : Bool) : (s.setCommanded b).inFlight = s.inFlight := rfl
@[simp] theorem State.setCommanded_resetHeld (s : State) (b : Bool) : (s.setCommanded b).resetHeld = s.resetHeld := rfl
@[simp] theorem State.setCommanded_stream (s : State) (b : Bool) : (s.setCommanded b).stream = s.stream := rfl
@[simp] theorem State.setCommanded_cfg (s : State) (b : Bool) : (s.setCommanded b).cfg = s.cfg := rfl
@[simp] theorem State.setCommanded_written (s : State) (b : Bool) : (s.setCommanded b).written = s.written := rfl
@[simp] theorem State.setCommanded_uninitRead (s : State) (b : Bool) : (s.setCommanded b).uninitRead = s.uninitRead := rfl
@[simp] theorem State.setCommanded_draws (s : State) (b : Bool) : (s.setCommanded b).draws = s.draws := rfl
@[simp] theorem State.setCommanded_derivations (s : State) (b : Bool) : (s.setCommanded b).derivations = s.derivations := rfl
@[simp] theorem State.setCommanded_commanded (s : State) (b : Bool) : (s.setCommanded b).commanded = b := rfl
@[simp] theorem State.setCommanded_inputs (s : State) (b : Bool) : (s.setCommanded b).inputs = s.inputs := rfl
@[simp] theorem State.setCommanded_replies (s : State) (b : Bool) : (s.setCommanded b).replies = s.replies := rfl

/-! setInputs -/

@[simp] theorem State.setInputs_p (s : State) (l : List Input) : (s.setInputs l).p = s.p := rfl
@[simp] theorem State.setInputs_crcreg (s : State) (l : List Input) : (s.setInputs l).crcreg = s.crcreg := rfl
@[simp] theorem State.setInputs_cursor (s : State) (l : List Input) : (s.setInputs l).cursor = s.cursor := rfl
@[simp] theorem State.setInputs_slen (s : State) (l : List Input) : (s.setInputs l).slen = s.slen := rfl
@[simp] theorem State.setInputs_scap (s : State) (l : List Input) : (s.setInputs l).scap = s.scap := rfl
@[simp] theorem State.setInputs_status (s : State) (l : List Input) : (s.setInputs l).status = s.status := rfl
@[simp] theorem State.setInputs_inFlight (s : State) (l : List Input) : (s.setInputs l).inFlight = s.inFlight := rfl
@[simp] theorem State.setInputs_resetHeld (s : State) (l : List Input) : (s.setInputs l).resetHeld = s.resetHeld := rfl
@[simp] theorem State.setInputs_stream (s : State) (l : List Input) : (s.setInputs l).stream = s.stream := rfl
@[simp] theorem State.setInputs_cfg (s : State) (l : List Input) : (s.setInputs l).cfg = s.cfg := rfl
@[simp] theorem State.setInputs_written (s : State) (l : List Input) : (s.setInputs l).written = s.written := rfl
@[simp] theorem State.setInputs_uninitRead (s : State) (l : List Input) : (s.setInputs l).uninitRead = s.uninitRead := rfl
@[simp] theorem State.setInputs_draws (s : State) (l : List Input) : (s.setInputs l).draws = s.draws := rfl
@[simp] theorem State.setInputs_derivations (s : State) (l : List Input) : (s.setInputs l).derivations = s.derivations := rfl
@[simp] theorem State.setInputs_commanded (s : State) (l : List Input) : (s.setInputs l).commanded = s.commanded := rfl
@[simp] theorem State.setInputs_inputs (s : State) (l : List Input) : (s.setInputs l).inputs = l := rfl
@[simp] theorem State.setInputs_replies (s : State) (l : List Input) : (s.setInputs l).replies = s.replies := rfl

/-! reply -/

@[simp] theorem State.reply_p (s : State) (r : Reply) : (s.reply r).p = s.p := rfl
@[simp] theorem State.reply_crcreg (s : State) (r : Reply) : (s.reply r).crcreg = s.crcreg := rfl
@[simp] theorem State.reply_cursor (s : State) (r : Reply) : (s.reply r).cursor = s.cursor := rfl
@[simp] theorem State.reply_slen (s : State) (r : Reply) : (s.reply r).slen = s.slen := rfl
@[simp] theorem State.reply_scap (s : State) (r : Reply) : (s.reply r).scap = s.scap := rfl
@[simp] theorem State.reply_status (s : State) (r : Reply) : (s.reply r).status = s.status := rfl
@[simp] theorem State.reply_inFlight (s : State) (r : Reply) : (s.reply r).inFlight = s.inFlight := rfl
@[simp] theorem State.reply_resetHeld (s : State) (r : Reply) : (s.reply r).resetHeld = s.resetHeld := rfl
@[simp] theorem State.reply_stream (s : State) (r : Reply) : (s.reply r).stream = s.stream := rfl
@[simp] theorem State.reply_cfg (s : State) (r : Reply) : (s.reply r).cfg = s.cfg := rfl
@[simp] theorem State.reply_written (s : State) (r : Reply) : (s.reply r).written = s.written := rfl
@[simp] theorem State.reply_uninitRead (s : State) (r : Reply) : (s.reply r).uninitRead = s.uninitRead := rfl
@[simp] theorem State.reply_draws (s : State) (r : Reply) : (s.reply r).draws = s.draws := rfl
@[simp] theorem State.reply_derivations (s : State) (r : Reply) : (s.reply r).derivations = s.derivations := rfl
@[simp] theorem State.reply_commanded (s : State) (r : Reply) : (s.reply r).commanded = s.commanded := rfl
@[simp] theorem State.reply_inputs (s : State) (r : Reply) : (s.reply r).inputs = s.inputs := rfl
@[simp] theorem State.reply_replies (s : State) (r : Reply) : (s.reply r).replies = r :: s.replies := rfl

/-! writeP -/

@[simp] theorem State.writeP_p (s : State) (r : Reg) (v : DWord) : (s.writeP r v).p = s.p.set r.val v r.isLt := rfl
@[simp] theorem State.writeP_crcreg (s : State) (r : Reg) (v : DWord) : (s.writeP r v).crcreg = s.crcreg := rfl
@[simp] theorem State.writeP_cursor (s : State) (r : Reg) (v : DWord) : (s.writeP r v).cursor = s.cursor := rfl
@[simp] theorem State.writeP_slen (s : State) (r : Reg) (v : DWord) : (s.writeP r v).slen = s.slen := rfl
@[simp] theorem State.writeP_scap (s : State) (r : Reg) (v : DWord) : (s.writeP r v).scap = s.scap := rfl
@[simp] theorem State.writeP_status (s : State) (r : Reg) (v : DWord) : (s.writeP r v).status = s.status := rfl
@[simp] theorem State.writeP_inFlight (s : State) (r : Reg) (v : DWord) : (s.writeP r v).inFlight = s.inFlight := rfl
@[simp] theorem State.writeP_resetHeld (s : State) (r : Reg) (v : DWord) : (s.writeP r v).resetHeld = s.resetHeld := rfl
@[simp] theorem State.writeP_stream (s : State) (r : Reg) (v : DWord) : (s.writeP r v).stream = s.stream := rfl
@[simp] theorem State.writeP_cfg (s : State) (r : Reg) (v : DWord) : (s.writeP r v).cfg = s.cfg := rfl
@[simp] theorem State.writeP_written (s : State) (r : Reg) (v : DWord) : (s.writeP r v).written = s.written.set r.val true r.isLt := rfl
@[simp] theorem State.writeP_uninitRead (s : State) (r : Reg) (v : DWord) : (s.writeP r v).uninitRead = s.uninitRead := rfl
@[simp] theorem State.writeP_draws (s : State) (r : Reg) (v : DWord) : (s.writeP r v).draws = s.draws := rfl
@[simp] theorem State.writeP_derivations (s : State) (r : Reg) (v : DWord) : (s.writeP r v).derivations = s.derivations := rfl
@[simp] theorem State.writeP_commanded (s : State) (r : Reg) (v : DWord) : (s.writeP r v).commanded = s.commanded := rfl
@[simp] theorem State.writeP_inputs (s : State) (r : Reg) (v : DWord) : (s.writeP r v).inputs = s.inputs := rfl
@[simp] theorem State.writeP_replies (s : State) (r : Reg) (v : DWord) : (s.writeP r v).replies = s.replies := rfl

/-! noteReads -/

@[simp] theorem State.noteReads_p (s : State) (rs : List Reg) : (s.noteReads rs).p = s.p := rfl
@[simp] theorem State.noteReads_crcreg (s : State) (rs : List Reg) : (s.noteReads rs).crcreg = s.crcreg := rfl
@[simp] theorem State.noteReads_cursor (s : State) (rs : List Reg) : (s.noteReads rs).cursor = s.cursor := rfl
@[simp] theorem State.noteReads_slen (s : State) (rs : List Reg) : (s.noteReads rs).slen = s.slen := rfl
@[simp] theorem State.noteReads_scap (s : State) (rs : List Reg) : (s.noteReads rs).scap = s.scap := rfl
@[simp] theorem State.noteReads_status (s : State) (rs : List Reg) : (s.noteReads rs).status = s.status := rfl
@[simp] theorem State.noteReads_inFlight (s : State) (rs : List Reg) : (s.noteReads rs).inFlight = s.inFlight := rfl
@[simp] theorem State.noteReads_resetHeld (s : State) (rs : List Reg) : (s.noteReads rs).resetHeld = s.resetHeld := rfl
@[simp] theorem State.noteReads_stream (s : State) (rs : List Reg) : (s.noteReads rs).stream = s.stream := rfl
@[simp] theorem State.noteReads_cfg (s : State) (rs : List Reg) : (s.noteReads rs).cfg = s.cfg := rfl
@[simp] theorem State.noteReads_written (s : State) (rs : List Reg) : (s.noteReads rs).written = s.written := rfl
@[simp] theorem State.noteReads_uninitRead (s : State) (rs : List Reg) : (s.noteReads rs).uninitRead = (s.uninitRead || rs.any fun r => !s.written[r.val]) := rfl
@[simp] theorem State.noteReads_draws (s : State) (rs : List Reg) : (s.noteReads rs).draws = s.draws := rfl
@[simp] theorem State.noteReads_derivations (s : State) (rs : List Reg) : (s.noteReads rs).derivations = s.derivations := rfl
@[simp] theorem State.noteReads_commanded (s : State) (rs : List Reg) : (s.noteReads rs).commanded = s.commanded := rfl
@[simp] theorem State.noteReads_inputs (s : State) (rs : List Reg) : (s.noteReads rs).inputs = s.inputs := rfl
@[simp] theorem State.noteReads_replies (s : State) (rs : List Reg) : (s.noteReads rs).replies = s.replies := rfl

/-! raise -/

@[simp] theorem State.raise_p (s : State) (op : BitVec 8) (c : Cause) : (s.raise op c).p = s.p := rfl
@[simp] theorem State.raise_crcreg (s : State) (op : BitVec 8) (c : Cause) : (s.raise op c).crcreg = s.crcreg := rfl
@[simp] theorem State.raise_cursor (s : State) (op : BitVec 8) (c : Cause) : (s.raise op c).cursor = s.cursor := rfl
@[simp] theorem State.raise_slen (s : State) (op : BitVec 8) (c : Cause) : (s.raise op c).slen = s.slen := rfl
@[simp] theorem State.raise_scap (s : State) (op : BitVec 8) (c : Cause) : (s.raise op c).scap = s.scap := rfl
@[simp] theorem State.raise_status (s : State) (op : BitVec 8) (c : Cause) : (s.raise op c).status = s.status.record op c := rfl
@[simp] theorem State.raise_inFlight (s : State) (op : BitVec 8) (c : Cause) : (s.raise op c).inFlight = s.inFlight := rfl
@[simp] theorem State.raise_resetHeld (s : State) (op : BitVec 8) (c : Cause) : (s.raise op c).resetHeld = s.resetHeld := rfl
@[simp] theorem State.raise_stream (s : State) (op : BitVec 8) (c : Cause) : (s.raise op c).stream = s.stream := rfl
@[simp] theorem State.raise_cfg (s : State) (op : BitVec 8) (c : Cause) : (s.raise op c).cfg = s.cfg := rfl
@[simp] theorem State.raise_written (s : State) (op : BitVec 8) (c : Cause) : (s.raise op c).written = s.written := rfl
@[simp] theorem State.raise_uninitRead (s : State) (op : BitVec 8) (c : Cause) : (s.raise op c).uninitRead = s.uninitRead := rfl
@[simp] theorem State.raise_draws (s : State) (op : BitVec 8) (c : Cause) : (s.raise op c).draws = s.draws := rfl
@[simp] theorem State.raise_derivations (s : State) (op : BitVec 8) (c : Cause) : (s.raise op c).derivations = s.derivations := rfl
@[simp] theorem State.raise_commanded (s : State) (op : BitVec 8) (c : Cause) : (s.raise op c).commanded = s.commanded := rfl
@[simp] theorem State.raise_inputs (s : State) (op : BitVec 8) (c : Cause) : (s.raise op c).inputs = s.inputs := rfl
@[simp] theorem State.raise_replies (s : State) (op : BitVec 8) (c : Cause) : (s.raise op c).replies = s.replies := rfl

/-! skipCommand -/

@[simp] theorem State.skipCommand_p (s : State) : (s.skipCommand).p = s.p := rfl
@[simp] theorem State.skipCommand_crcreg (s : State) : (s.skipCommand).crcreg = s.crcreg := rfl
@[simp] theorem State.skipCommand_cursor (s : State) : (s.skipCommand).cursor = s.cursor := rfl
@[simp] theorem State.skipCommand_slen (s : State) : (s.skipCommand).slen = s.slen := rfl
@[simp] theorem State.skipCommand_scap (s : State) : (s.skipCommand).scap = s.scap := rfl
@[simp] theorem State.skipCommand_status (s : State) : (s.skipCommand).status = s.status.skipped := rfl
@[simp] theorem State.skipCommand_inFlight (s : State) : (s.skipCommand).inFlight = s.inFlight := rfl
@[simp] theorem State.skipCommand_resetHeld (s : State) : (s.skipCommand).resetHeld = s.resetHeld := rfl
@[simp] theorem State.skipCommand_stream (s : State) : (s.skipCommand).stream = s.stream := rfl
@[simp] theorem State.skipCommand_cfg (s : State) : (s.skipCommand).cfg = s.cfg := rfl
@[simp] theorem State.skipCommand_written (s : State) : (s.skipCommand).written = s.written := rfl
@[simp] theorem State.skipCommand_uninitRead (s : State) : (s.skipCommand).uninitRead = s.uninitRead := rfl
@[simp] theorem State.skipCommand_draws (s : State) : (s.skipCommand).draws = s.draws := rfl
@[simp] theorem State.skipCommand_derivations (s : State) : (s.skipCommand).derivations = s.derivations := rfl
@[simp] theorem State.skipCommand_commanded (s : State) : (s.skipCommand).commanded = s.commanded := rfl
@[simp] theorem State.skipCommand_inputs (s : State) : (s.skipCommand).inputs = s.inputs := rfl
@[simp] theorem State.skipCommand_replies (s : State) : (s.skipCommand).replies = s.replies := rfl

/-! clearError -/

@[simp] theorem State.clearError_p (s : State) : (s.clearError).p = s.p := rfl
@[simp] theorem State.clearError_crcreg (s : State) : (s.clearError).crcreg = s.crcreg := rfl
@[simp] theorem State.clearError_cursor (s : State) : (s.clearError).cursor = s.cursor := rfl
@[simp] theorem State.clearError_slen (s : State) : (s.clearError).slen = s.slen := rfl
@[simp] theorem State.clearError_scap (s : State) : (s.clearError).scap = s.scap := rfl
@[simp] theorem State.clearError_status (s : State) : (s.clearError).status = Status.clear := rfl
@[simp] theorem State.clearError_inFlight (s : State) : (s.clearError).inFlight = s.inFlight := rfl
@[simp] theorem State.clearError_resetHeld (s : State) : (s.clearError).resetHeld = s.resetHeld := rfl
@[simp] theorem State.clearError_stream (s : State) : (s.clearError).stream = s.stream := rfl
@[simp] theorem State.clearError_cfg (s : State) : (s.clearError).cfg = s.cfg := rfl
@[simp] theorem State.clearError_written (s : State) : (s.clearError).written = s.written := rfl
@[simp] theorem State.clearError_uninitRead (s : State) : (s.clearError).uninitRead = s.uninitRead := rfl
@[simp] theorem State.clearError_draws (s : State) : (s.clearError).draws = s.draws := rfl
@[simp] theorem State.clearError_derivations (s : State) : (s.clearError).derivations = s.derivations := rfl
@[simp] theorem State.clearError_commanded (s : State) : (s.clearError).commanded = s.commanded := rfl
@[simp] theorem State.clearError_inputs (s : State) : (s.clearError).inputs = s.inputs := rfl
@[simp] theorem State.clearError_replies (s : State) : (s.clearError).replies = s.replies := rfl

/-! forgetDerivations -/

@[simp] theorem State.forgetDerivations_p (s : State) : (s.forgetDerivations).p = s.p := rfl
@[simp] theorem State.forgetDerivations_crcreg (s : State) : (s.forgetDerivations).crcreg = s.crcreg := rfl
@[simp] theorem State.forgetDerivations_cursor (s : State) : (s.forgetDerivations).cursor = s.cursor := rfl
@[simp] theorem State.forgetDerivations_slen (s : State) : (s.forgetDerivations).slen = s.slen := rfl
@[simp] theorem State.forgetDerivations_scap (s : State) : (s.forgetDerivations).scap = s.scap := rfl
@[simp] theorem State.forgetDerivations_status (s : State) : (s.forgetDerivations).status = s.status := rfl
@[simp] theorem State.forgetDerivations_inFlight (s : State) : (s.forgetDerivations).inFlight = s.inFlight := rfl
@[simp] theorem State.forgetDerivations_resetHeld (s : State) : (s.forgetDerivations).resetHeld = s.resetHeld := rfl
@[simp] theorem State.forgetDerivations_stream (s : State) : (s.forgetDerivations).stream = s.stream := rfl
@[simp] theorem State.forgetDerivations_cfg (s : State) : (s.forgetDerivations).cfg = s.cfg := rfl
@[simp] theorem State.forgetDerivations_written (s : State) : (s.forgetDerivations).written = s.written := rfl
@[simp] theorem State.forgetDerivations_uninitRead (s : State) : (s.forgetDerivations).uninitRead = s.uninitRead := rfl
@[simp] theorem State.forgetDerivations_draws (s : State) : (s.forgetDerivations).draws = s.draws := rfl
@[simp] theorem State.forgetDerivations_derivations (s : State) : (s.forgetDerivations).derivations = [] := rfl
@[simp] theorem State.forgetDerivations_commanded (s : State) : (s.forgetDerivations).commanded = s.commanded := rfl
@[simp] theorem State.forgetDerivations_inputs (s : State) : (s.forgetDerivations).inputs = s.inputs := rfl
@[simp] theorem State.forgetDerivations_replies (s : State) : (s.forgetDerivations).replies = s.replies := rfl

/-! noteDerivation -/

@[simp] theorem State.noteDerivation_p (s : State) (d : Derivation) : (s.noteDerivation d).p = s.p := rfl
@[simp] theorem State.noteDerivation_crcreg (s : State) (d : Derivation) : (s.noteDerivation d).crcreg = s.crcreg := rfl
@[simp] theorem State.noteDerivation_cursor (s : State) (d : Derivation) : (s.noteDerivation d).cursor = s.cursor := rfl
@[simp] theorem State.noteDerivation_slen (s : State) (d : Derivation) : (s.noteDerivation d).slen = s.slen := rfl
@[simp] theorem State.noteDerivation_scap (s : State) (d : Derivation) : (s.noteDerivation d).scap = s.scap := rfl
@[simp] theorem State.noteDerivation_status (s : State) (d : Derivation) : (s.noteDerivation d).status = s.status := rfl
@[simp] theorem State.noteDerivation_inFlight (s : State) (d : Derivation) : (s.noteDerivation d).inFlight = s.inFlight := rfl
@[simp] theorem State.noteDerivation_resetHeld (s : State) (d : Derivation) : (s.noteDerivation d).resetHeld = s.resetHeld := rfl
@[simp] theorem State.noteDerivation_stream (s : State) (d : Derivation) : (s.noteDerivation d).stream = s.stream := rfl
@[simp] theorem State.noteDerivation_cfg (s : State) (d : Derivation) : (s.noteDerivation d).cfg = s.cfg := rfl
@[simp] theorem State.noteDerivation_written (s : State) (d : Derivation) : (s.noteDerivation d).written = s.written := rfl
@[simp] theorem State.noteDerivation_uninitRead (s : State) (d : Derivation) : (s.noteDerivation d).uninitRead = s.uninitRead := rfl
@[simp] theorem State.noteDerivation_draws (s : State) (d : Derivation) : (s.noteDerivation d).draws = s.draws := rfl
@[simp] theorem State.noteDerivation_derivations (s : State) (d : Derivation) : (s.noteDerivation d).derivations = d :: s.derivations := rfl
@[simp] theorem State.noteDerivation_commanded (s : State) (d : Derivation) : (s.noteDerivation d).commanded = s.commanded := rfl
@[simp] theorem State.noteDerivation_inputs (s : State) (d : Derivation) : (s.noteDerivation d).inputs = s.inputs := rfl
@[simp] theorem State.noteDerivation_replies (s : State) (d : Derivation) : (s.noteDerivation d).replies = s.replies := rfl

/-! issueDerive -/

@[simp] theorem State.issueDerive_p (s : State) (off : Int) : (s.issueDerive off).p = s.p := by
  unfold State.issueDerive; split <;> rfl
@[simp] theorem State.issueDerive_crcreg (s : State) (off : Int) : (s.issueDerive off).crcreg = s.crcreg := by
  unfold State.issueDerive; split <;> rfl
@[simp] theorem State.issueDerive_cursor (s : State) (off : Int) : (s.issueDerive off).cursor = s.cursor := by
  unfold State.issueDerive; split <;> rfl
@[simp] theorem State.issueDerive_slen (s : State) (off : Int) : (s.issueDerive off).slen = s.slen := by
  unfold State.issueDerive; split <;> rfl
@[simp] theorem State.issueDerive_scap (s : State) (off : Int) : (s.issueDerive off).scap = s.scap := by
  unfold State.issueDerive; split <;> rfl
@[simp] theorem State.issueDerive_status (s : State) (off : Int) : (s.issueDerive off).status = s.status := by
  unfold State.issueDerive; split <;> rfl
@[simp] theorem State.issueDerive_inFlight (s : State) (off : Int) : (s.issueDerive off).inFlight = s.inFlight := by
  unfold State.issueDerive; split <;> rfl
@[simp] theorem State.issueDerive_resetHeld (s : State) (off : Int) : (s.issueDerive off).resetHeld = s.resetHeld := by
  unfold State.issueDerive; split <;> rfl
@[simp] theorem State.issueDerive_stream (s : State) (off : Int) : (s.issueDerive off).stream = s.stream := by
  unfold State.issueDerive; split <;> rfl
@[simp] theorem State.issueDerive_cfg (s : State) (off : Int) : (s.issueDerive off).cfg = s.cfg := by
  unfold State.issueDerive; split <;> rfl
@[simp] theorem State.issueDerive_written (s : State) (off : Int) : (s.issueDerive off).written = s.written := by
  unfold State.issueDerive; split <;> rfl
@[simp] theorem State.issueDerive_uninitRead (s : State) (off : Int) : (s.issueDerive off).uninitRead = s.uninitRead := by
  unfold State.issueDerive; split <;> rfl
@[simp] theorem State.issueDerive_draws (s : State) (off : Int) : (s.issueDerive off).draws = s.draws := by
  unfold State.issueDerive; split <;> rfl
theorem State.issueDerive_derivations (s : State) (off : Int) :
    (s.issueDerive off).derivations = if off = -1 then [] else s.derivations := by
  unfold State.issueDerive; split <;> rfl
@[simp] theorem State.issueDerive_commanded (s : State) (off : Int) : (s.issueDerive off).commanded = s.commanded := by
  unfold State.issueDerive; split <;> rfl
@[simp] theorem State.issueDerive_inputs (s : State) (off : Int) : (s.issueDerive off).inputs = s.inputs := by
  unfold State.issueDerive; split <;> rfl
@[simp] theorem State.issueDerive_replies (s : State) (off : Int) : (s.issueDerive off).replies = s.replies := by
  unfold State.issueDerive; split <;> rfl

/-! The operand registers. -/

@[simp] theorem State.readP_writeP_self (s : State) (r : Reg) (v : DWord) : (s.writeP r v).readP r = v := by
  simp [State.readP]

theorem State.readP_writeP_of_ne (s : State) (r q : Reg) (v : DWord) (h : q ≠ r) : (s.writeP r v).readP q = s.readP q := by
  have h' : r.val ≠ q.val := fun e => h (Fin.ext e.symm)
  simp [State.readP, h']

theorem State.readP_writeP (s : State) (r q : Reg) (v : DWord) :
    (s.writeP r v).readP q = if q = r then v else s.readP q := by
  split
  · subst_vars; simp
  · exact State.readP_writeP_of_ne s r q v ‹_›

/-- A register read depends on the registers only. -/
theorem State.readP_congr {s t : State} (h : t.p = s.p) (r : Reg) : t.readP r = s.readP r := by simp [State.readP, h]

@[simp] theorem State.readP_setCrcreg (s : State) (w : Word) (q : Reg) : (s.setCrcreg w).readP q = s.readP q := rfl
@[simp] theorem State.readP_setCursor (s : State) (v : DWord) (q : Reg) : (s.setCursor v).readP q = s.readP q := rfl
@[simp] theorem State.readP_setSlen (s : State) (v : DWord) (q : Reg) : (s.setSlen v).readP q = s.readP q := rfl
@[simp] theorem State.readP_setScap (s : State) (c : Scap) (q : Reg) : (s.setScap c).readP q = s.readP q := rfl
@[simp] theorem State.readP_setStatus (s : State) (st : Status) (q : Reg) : (s.setStatus st).readP q = s.readP q := rfl
@[simp] theorem State.readP_setInFlight (s : State) (w : Option Word) (q : Reg) : (s.setInFlight w).readP q = s.readP q := rfl
@[simp] theorem State.readP_setResetHeld (s : State) (b : Bool) (q : Reg) : (s.setResetHeld b).readP q = s.readP q := rfl
@[simp] theorem State.readP_setStream (s : State) (m : Memory) (q : Reg) : (s.setStream m).readP q = s.readP q := rfl
@[simp] theorem State.readP_setDraws (s : State) (n : Nat) (q : Reg) : (s.setDraws n).readP q = s.readP q := rfl
@[simp] theorem State.readP_setDerivations (s : State) (l : List Derivation) (q : Reg) : (s.setDerivations l).readP q = s.readP q := rfl
@[simp] theorem State.readP_setCommanded (s : State) (b : Bool) (q : Reg) : (s.setCommanded b).readP q = s.readP q := rfl
@[simp] theorem State.readP_setInputs (s : State) (l : List Input) (q : Reg) : (s.setInputs l).readP q = s.readP q := rfl
@[simp] theorem State.readP_reply (s : State) (r : Reply) (q : Reg) : (s.reply r).readP q = s.readP q := rfl
@[simp] theorem State.readP_noteReads (s : State) (rs : List Reg) (q : Reg) : (s.noteReads rs).readP q = s.readP q := rfl
@[simp] theorem State.readP_raise (s : State) (op : BitVec 8) (c : Cause) (q : Reg) : (s.raise op c).readP q = s.readP q := rfl
@[simp] theorem State.readP_skipCommand (s : State) (q : Reg) : (s.skipCommand).readP q = s.readP q := rfl
@[simp] theorem State.readP_clearError (s : State) (q : Reg) : (s.clearError).readP q = s.readP q := rfl
@[simp] theorem State.readP_forgetDerivations (s : State) (q : Reg) : (s.forgetDerivations).readP q = s.readP q := rfl
@[simp] theorem State.readP_noteDerivation (s : State) (d : Derivation) (q : Reg) : (s.noteDerivation d).readP q = s.readP q := rfl

/-! STATUS. -/

@[simp] theorem Status.record_skip (st : Status) (op : BitVec 8) (c : Cause) : (st.record op c).skip = st.skip := rfl
@[simp] theorem Status.record_err (st : Status) (op : BitVec 8) (c : Cause) : (st.record op c).err = c.kind.code := rfl
@[simp] theorem Status.record_cause (st : Status) (op : BitVec 8) (c : Cause) : (st.record op c).cause = c.code := rfl
@[simp] theorem Status.record_errop (st : Status) (op : BitVec 8) (c : Cause) : (st.record op c).errop = op := rfl
@[simp] theorem Status.skipped_skip (st : Status) : st.skipped.skip = true := rfl
@[simp] theorem Status.skipped_err (st : Status) : st.skipped.err = st.err := rfl
@[simp] theorem Status.skipped_cause (st : Status) : st.skipped.cause = st.cause := rfl
@[simp] theorem Status.skipped_errop (st : Status) : st.skipped.errop = st.errop := rfl

/-- No recorded error has code 0, so a raised error is seen in ERR. -/
@[simp] theorem ErrKind.code_ne_zero (k : ErrKind) : k.code ≠ 0 := by cases k <;> decide

end Sys2Proof.Machine
end

