-- ==== Sys2Proof/Laws/Memory.lean ====
section
/-! SUPPORT. The stream space: a read after a write, the canonical form, and what bytes a write leaves alone. -/

namespace Sys2Proof.Machine

@[simp] theorem Memory.lookup_write_self (m : Memory) (a : Nat) (b : Byte) : (m.write a b).lookup a = some b := by
  induction m with
  | nil => simp [Memory.write, Memory.lookup]
  | cons c m ih =>
    obtain ⟨a', b'⟩ := c
    unfold Memory.write
    split
    · simp [Memory.lookup]
    · split
      · simp [Memory.lookup]
      · simp [Memory.lookup, *]

theorem Memory.lookup_write_of_ne (m : Memory) (a x : Nat) (b : Byte) (h : x ≠ a) :
    (m.write a b).lookup x = m.lookup x := by
  induction m with
  | nil => simp [Memory.write, Memory.lookup, h]
  | cons c m ih =>
    obtain ⟨a', b'⟩ := c
    unfold Memory.write
    split
    · simp [Memory.lookup, h]
    · split
      · subst_vars; simp [Memory.lookup, h]
      · simp [Memory.lookup, ih]

/-- Every entry after a write is the one written or was there before. -/
theorem Memory.mem_write {m : Memory} {a : Nat} {b : Byte} {c : Host.Cell} (h : c ∈ m.write a b) : c = (a, b) ∨ c ∈ m := by
  induction m with
  | nil => simpa [Memory.write] using h
  | cons d m ih =>
    obtain ⟨a', b'⟩ := d
    unfold Memory.write at h
    split at h
    · simpa using h
    · split at h
      · rcases List.mem_cons.1 h with h | h
        · exact .inl h
        · exact .inr (List.mem_cons_of_mem _ h)
      · rcases List.mem_cons.1 h with h | h
        · exact .inr (h ▸ List.mem_cons_self)
        · exact (ih h).imp_right (List.mem_cons_of_mem _)

/-- A write keeps the canonical form. -/
theorem Memory.write_wf {m : Memory} (h : m.wf) (a : Nat) (b : Byte) : (m.write a b).wf := by
  induction m with
  | nil => simp [Memory.write]
  | cons c m ih =>
    obtain ⟨a', b'⟩ := c
    obtain ⟨hc, hm⟩ := List.pairwise_cons.1 h
    unfold Memory.write
    split
    · refine List.pairwise_cons.2 ⟨fun d hd => ?_, h⟩
      rcases List.mem_cons.1 hd with rfl | hd
      · assumption
      · exact Nat.lt_trans ‹_› (hc d hd)
    · split
      · subst_vars; exact List.pairwise_cons.2 ⟨hc, hm⟩
      · refine List.pairwise_cons.2 ⟨fun d hd => ?_, ih hm⟩
        rcases Memory.mem_write hd with rfl | hd
        · show a' < a; omega
        · exact hc d hd

/-- Several writes keep the canonical form. -/
theorem Memory.writeBytes_wf (bs : List Byte) {m : Memory} (h : m.wf) (a : Nat) : (m.writeBytes a bs).wf := by
  induction bs generalizing m a with
  | nil => exact h
  | cons b bs ih => exact ih (Memory.write_wf h a b) (a + 1)

/-- Every entry after several writes lies in the range written or was there before. -/
theorem Memory.mem_writeBytes {bs : List Byte} {m : Memory} {a : Nat} {c : Host.Cell} (h : c ∈ m.writeBytes a bs) :
    (a ≤ c.1 ∧ c.1 < a + bs.length) ∨ c ∈ m := by
  induction bs generalizing m a with
  | nil => exact .inr h
  | cons b bs ih =>
    rcases ih h with ⟨h1, h2⟩ | h
    · exact .inl ⟨by omega, by simp only [List.length_cons]; omega⟩
    · rcases Memory.mem_write h with rfl | h
      · exact .inl ⟨Nat.le_refl _, by simp⟩
      · exact .inr h

/-- Several writes leave every byte outside their range alone. -/
theorem Memory.lookup_writeBytes_outside (bs : List Byte) (m : Memory) (a x : Nat) (h : x < a ∨ a + bs.length ≤ x) :
    (m.writeBytes a bs).lookup x = m.lookup x := by
  induction bs generalizing m a with
  | nil => rfl
  | cons b bs ih =>
    simp only [List.length_cons] at h
    show (Memory.writeBytes (m.write a b) (a + 1) bs).lookup x = _
    rw [ih (m.write a b) (a + 1) (by omega), Memory.lookup_write_of_ne m a x b (by omega)]

/-- Several writes, read back. -/
theorem Memory.lookup_writeBytes_inside (bs : List Byte) (m : Memory) (a k : Nat) (h : k < bs.length) :
    (m.writeBytes a bs).lookup (a + k) = some bs[k] := by
  induction bs generalizing m a k with
  | nil => simp at h
  | cons b bs ih =>
    show (Memory.writeBytes (m.write a b) (a + 1) bs).lookup (a + k) = _
    cases k with
    | zero => rw [Memory.lookup_writeBytes_outside _ _ _ _ (by omega)]; simp
    | succ k =>
      have := ih (m.write a b) (a + 1) k (by simpa using h)
      rw [show a + (k + 1) = a + 1 + k by omega, this]; simp

/-- A stream byte depends on the stream space only. -/
theorem State.streamByte_congr {s t : State} (h : t.stream = s.stream) (a : Nat) : t.streamByte a = s.streamByte a := by
  simp [State.streamByte, h]

theorem State.streamByte_setStream (s : State) (m : Memory) (a : Nat) :
    (s.setStream m).streamByte a = (m.lookup a).getD (Config.powerOnByte a) := rfl

/-- Bytes outside a range written read as before. -/
theorem State.streamByte_writeBytes_outside (s : State) (a x : Nat) (bs : List Byte) (h : x < a ∨ a + bs.length ≤ x) :
    (s.setStream (s.stream.writeBytes a bs)).streamByte x = s.streamByte x := by
  rw [State.streamByte_setStream, Memory.lookup_writeBytes_outside _ _ _ _ h]; rfl

/-- Bytes inside a range written read as written. -/
theorem State.streamByte_writeBytes_inside (s : State) (a k : Nat) (bs : List Byte) (h : k < bs.length) :
    (s.setStream (s.stream.writeBytes a bs)).streamByte (a + k) = bs[k] := by
  rw [State.streamByte_setStream, Memory.lookup_writeBytes_inside _ _ _ _ h]; rfl

@[simp] theorem State.length_streamBytes (s : State) (a n : Nat) : (s.streamBytes a n).length = n := by
  induction n generalizing a with
  | zero => rfl
  | succ n ih => simp [State.streamBytes, ih]

@[simp] theorem State.getElem_streamBytes (s : State) (a n k : Nat) (h : k < (s.streamBytes a n).length) :
    (s.streamBytes a n)[k] = s.streamByte (a + k) := by
  induction n generalizing a k with
  | zero => simp [State.streamBytes] at h
  | succ n ih =>
    cases k with
    | zero => rfl
    | succ k =>
      simp only [State.streamBytes, List.getElem_cons_succ]
      rw [ih (a + 1) k (by simpa [State.streamBytes] using h), show a + 1 + k = a + (k + 1) by omega]

/-- Bytes read from states that agree on the range agree. -/
theorem State.streamBytes_congr {s t : State} (a n : Nat) (h : ∀ x, a ≤ x → x < a + n → t.streamByte x = s.streamByte x) :
    t.streamBytes a n = s.streamBytes a n := by
  refine List.ext_getElem (by simp) fun k h1 h2 => ?_
  simp only [State.getElem_streamBytes]
  exact h _ (by omega) (by simp at h1; omega)

/-- Bytes read depend on the stream space only. -/
theorem State.streamBytes_of_stream_eq {s t : State} (h : t.stream = s.stream) (a n : Nat) :
    t.streamBytes a n = s.streamBytes a n := State.streamBytes_congr a n fun x _ _ => State.streamByte_congr h x

/-- The stream depends on the stream space and SLEN only. -/
theorem State.streamContents_congr {s t : State} (h : t.stream = s.stream) (hl : t.slen = s.slen) :
    t.streamContents = s.streamContents := by
  unfold State.streamContents
  rw [hl, State.streamBytes_of_stream_eq h]

@[simp] theorem State.streamByte_noteReads (s : State) (l : List Reg) (a : Nat) :
    (s.noteReads l).streamByte a = s.streamByte a := rfl

@[simp] theorem State.streamBytes_noteReads (s : State) (l : List Reg) (a n : Nat) :
    (s.noteReads l).streamBytes a n = s.streamBytes a n :=
  State.streamBytes_of_stream_eq (s := s) (t := s.noteReads l) rfl a n

/-- What one host write leaves at every address. -/
theorem State.streamByte_write (s : State) (a x : Nat) (b : Byte) :
    (s.setStream (s.stream.write a b)).streamByte x = if x = a then b else s.streamByte x := by
  rw [State.streamByte_setStream]
  split
  · subst_vars; simp
  · rw [Memory.lookup_write_of_ne _ _ _ _ ‹_›]; rfl

end Sys2Proof.Machine
end

