-- ==== Sys2Proof/Laws/Ops.lean ====
section
/-! SUPPORT. What each shared operation can do, said once: the read of a run of stream bytes, the append burst, the checks of
CRCSTRM and DERIVE, the bounds of offset resolution. -/

namespace Sys2Proof.Machine

/-- A read of n bytes succeeds exactly when none of them faults, and then gives the fold of the bytes there. -/
theorem State.foldStream_eq_some (s : State) (n a : Nat) (r q : Word) :
    s.foldStream n a r = some q ↔
      (∀ x, a ≤ x → x < a + n → portFault s.cfg .read x = false) ∧ q = (s.streamBytes a n).foldl fold8 r := by
  induction n generalizing a r with
  | zero => simp only [State.foldStream, State.streamBytes, List.foldl_nil, Option.some.injEq]
            constructor
            · rintro rfl; exact ⟨fun x _ _ => by omega, rfl⟩
            · rintro ⟨-, rfl⟩; rfl
  | succ n ih =>
    unfold State.foldStream State.memRead
    cases hf : portFault s.cfg .read a with
    | true =>
      simp only [if_true]
      constructor
      · intro h; cases h
      · rintro ⟨h, -⟩; rw [h a (Nat.le_refl _) (by omega)] at hf; cases hf
    | false =>
      simp only [Bool.false_eq_true, if_false, ih, State.streamBytes, List.foldl_cons]
      refine and_congr_left fun _ => ⟨fun h x h1 h2 => ?_, fun h x h1 h2 => h x (by omega) (by omega)⟩
      rcases Nat.lt_or_ge a x with h3 | h3
      · exact h x h3 (by omega)
      · rw [show x = a by omega]; exact hf

/-- A read of n bytes ends in IO_PORT exactly when one of them faults. -/
theorem State.foldStream_eq_none (s : State) (n a : Nat) (r : Word) :
    s.foldStream n a r = none ↔ ∃ x, a ≤ x ∧ x < a + n ∧ portFault s.cfg .read x = true := by
  constructor
  · intro h
    by_contra hc
    have := (s.foldStream_eq_some n a r _).2 ⟨fun x h1 h2 => ?_, rfl⟩
    · rw [h] at this; cases this
    · cases hp : portFault s.cfg .read x with
      | false => rfl
      | true => exact absurd ⟨x, h1, h2, hp⟩ hc
  · rintro ⟨x, h1, h2, h3⟩
    cases hq : s.foldStream n a r with
    | none => rfl
    | some q => rw [((s.foldStream_eq_some n a r q).1 hq).1 x h1 h2] at h3; cases h3

/-- A checksum read in place of its fold. -/
theorem State.foldStream_of_no_fault (s : State) (n a : Nat) (r : Word)
    (h : ∀ x, a ≤ x → x < a + n → portFault s.cfg .read x = false) :
    s.foldStream n a r = some ((s.streamBytes a n).foldl fold8 r) := (s.foldStream_eq_some n a r _).2 ⟨h, rfl⟩

/-- The append burst either faults, leaving four bytes of any value and SLEN as it was, or writes four zeros and adds 4 to
SLEN. -/
theorem State.appendZeros_cases (s : State) :
    (appendFaults s.cfg s.slen.toNat = true ∧ s.appendZeros =
      .error ((s.setStream (s.stream.writeBytes s.slen.toNat (anyFourBytes s.draws))).setDraws (s.draws + 4))) ∨
    (appendFaults s.cfg s.slen.toNat = false ∧ s.appendZeros =
      .ok ((s.setStream (s.stream.writeBytes s.slen.toNat [0, 0, 0, 0])).setSlen (BitVec.ofNat 64 (s.slen.toNat + 4)))) := by
  cases h : appendFaults s.cfg s.slen.toNat <;> simp [State.appendZeros, h]

/-- What CRCSTRM's checks have established when they pass. -/
theorem crcstrmCheck_ok {s : State} {u : Unit} (h : crcstrmCheck s = .ok u) :
    s.scap.present = true ∧ s.slen.toNat ≤ s.cfg.streamCap ∧ s.scap.read = true := by
  unfold crcstrmCheck at h
  repeat' split at h
  all_goals first | cases h; done | skip
  rename_i h1 h2 h3
  exact ⟨by simpa using h1, by omega, by simpa using h3⟩

/-- What DERIVE's checks have established when they pass. -/
theorem deriveCheck_ok {off : Int} {s : State} {mode : OffsetMode} (h : deriveCheck off s = .ok mode) :
    s.scap.present = true ∧ s.slen.toNat ≠ 0 ∧ resolveOffset off s.slen.toNat = some mode ∧
      s.slen.toNat ≤ s.cfg.streamCap ∧ s.scap.seek = true ∧ s.scap.read = true ∧
      (mode = .append → s.scap.write = true ∧ s.slen.toNat + 4 ≤ s.cfg.streamCap) := by
  unfold deriveCheck at h
  repeat' split at h
  all_goals first | cases h; done | skip
  · cases h; simp_all
  · cases h; simp_all

end Sys2Proof.Machine
end

