-- ==== Sys2Proof/Laws/Commands.lean ====
section
/-! SUPPORT. What each command with more than one outcome can do, and what each part of a step is, said once: later proofs
cite these and unfold no meaning. -/

namespace Sys2Proof.Machine

/-- CRCSTRM fails with one of four causes and changes STATUS only, or reads every byte from CURSOR to the end. -/
theorem execCrcstrm_cases (rd : Reg) (s : State) :
    (∃ c, (c = .preNull ∨ c = .ioRange ∨ c = .ioNoread ∨ c = .ioPort) ∧ execCrcstrm rd s = .next (s.raise 0x13 c)) ∨
    ∃ r, crcstrmCheck s = .ok () ∧
      s.foldStream (s.slen.toNat - s.cursor.toNat) s.cursor.toNat crcInit = some r ∧
      execCrcstrm rd s = .next (((s.setCrcreg r).writeP rd (wordResult (r ^^^ crcXorOut))).setCursor
        (if s.cursor < s.slen then s.slen else s.cursor)) := by
  unfold execCrcstrm
  cases h : crcstrmCheck s with
  | error c =>
    refine .inl ⟨c, ?_, rfl⟩
    unfold crcstrmCheck at h
    repeat' split at h
    all_goals first | (cases h; done) | (cases h; simp)
  | ok u =>
    cases hf : s.foldStream (s.slen.toNat - s.cursor.toNat) s.cursor.toNat crcInit with
    | none => exact .inl ⟨.ioPort, by simp, rfl⟩
    | some r => exact .inr ⟨r, rfl, rfl, rfl⟩

/-- DIVREM fails on a zero divisor, or writes quotient and remainder. -/
theorem execDivrem_cases (rd rx rs1 rs2 : Reg) (s : State) :
    (s.polyOperand rs2 = 0 ∧ execDivrem rd rx rs1 rs2 s = .next ((s.noteReads [rs1, rs2]).raise 0x23 .ariDiv0)) ∨
    (s.polyOperand rs2 ≠ 0 ∧ execDivrem rd rx rs1 rs2 s =
      .next (((s.noteReads [rs1, rs2]).writeP rd (polyResult (pdiv (s.polyOperand rs1) (s.polyOperand rs2)))).writeP rx
        (polyResult (pmod (s.polyOperand rs1) (s.polyOperand rs2))))) := by
  by_cases h : s.polyOperand rs2 = 0
  · exact .inl ⟨h, by simp [execDivrem, h, Instr.opcode]⟩
  · exact .inr ⟨h, by simp [execDivrem, h]⟩

/-- RECIP fails where there is no inverse, or writes it. -/
theorem execRecip_cases (rd rs1 : Reg) (s : State) :
    (recip (s.polyOperand rs1) = none ∧ execRecip rd rs1 s = .next ((s.noteReads [rs1]).raise 0x24 .ariNorecip)) ∨
    ∃ v, recip (s.polyOperand rs1) = some v ∧ execRecip rd rs1 s = .next ((s.noteReads [rs1]).writeP rd (polyResult v)) := by
  unfold execRecip
  cases recip (s.polyOperand rs1) with
  | none => exact .inl ⟨rfl, rfl⟩
  | some v => exact .inr ⟨v, rfl, rfl⟩

/-- DELTA writes a magic delta where there is one. -/
theorem execDelta_cases (rd rs1 rs2 rx : Reg) (s : State) :
    (magicOf (s.crcOperand rs1) (s.crcOperand rs2) (s.countOperand rx) = none ∧
      execDelta rd rs1 rs2 rx s = .next ((s.noteReads [rs1, rs2, rx]).raise 0x30 .ariNorecip)) ∨
    ∃ m, magicOf (s.crcOperand rs1) (s.crcOperand rs2) (s.countOperand rx) = some m ∧
      execDelta rd rs1 rs2 rx s = .next ((s.noteReads [rs1, rs2, rx]).writeP rd (polyResult m)) := by
  unfold execDelta
  cases magicOf (s.crcOperand rs1) (s.crcOperand rs2) (s.countOperand rx) with
  | none => exact .inl ⟨rfl, rfl⟩
  | some m => exact .inr ⟨m, rfl, rfl⟩

/-- The second half of DERIVE: a read faults, or there is no magic delta, and only STATUS changes; or CRCREG, CURSOR and the
two destinations are written, and the magic delta is noted. -/
theorem deriveFrom_cases (op : BitVec 8) (rd rx : Reg) (des : Word) (ro : Nat) (s : State) :
    (s.foldStream s.slen.toNat 0 crcInit = none ∧ deriveFrom op rd rx des ro s = s.raise op .ioPort) ∨
    ∃ r, s.foldStream s.slen.toNat 0 crcInit = some r ∧
      ((magicOf (r ^^^ crcXorOut) des ((s.slen.toNat - ro) * 8) = none ∧
          deriveFrom op rd rx des ro s = s.raise op .ariNorecip) ∨
        ∃ m, magicOf (r ^^^ crcXorOut) des ((s.slen.toNat - ro) * 8) = some m ∧
          deriveFrom op rd rx des ro s =
            ((((s.setCrcreg r).setCursor s.slen).writeP rd (polyResult m)).writeP rx (polyResult ro)).noteDerivation
              ⟨polyResult ro, patchWord m⟩) := by
  unfold deriveFrom
  simp only
  cases s.foldStream s.slen.toNat 0 crcInit with
  | none => exact .inl ⟨rfl, rfl⟩
  | some r =>
    refine .inr ⟨r, rfl, ?_⟩
    simp only
    cases magicOf (r ^^^ crcXorOut) des ((s.slen.toNat - ro) * 8) with
    | none => exact .inl ⟨rfl, rfl⟩
    | some m => exact .inr ⟨m, rfl, rfl⟩

/-- The state DERIVE works on once its append has written four zeros. -/
def State.appended (s : State) : State :=
  (s.setStream (s.stream.writeBytes s.slen.toNat [0, 0, 0, 0])).setSlen (BitVec.ofNat 64 (s.slen.toNat + 4))

/-- DERIVE's checks depend on SCAP, SLEN and the platform only. -/
theorem deriveCheck_congr {s t : State} (off : Int) (h1 : t.scap = s.scap) (h2 : t.slen = s.slen) (h3 : t.cfg = s.cfg) :
    deriveCheck off t = deriveCheck off s := by
  unfold deriveCheck; rw [h1, h2, h3]

theorem deriveCheck_issued (off : Int) (s : State) (rs1 rs2 : Reg) :
    deriveCheck off (s.deriveIssued rs1 rs2) = deriveCheck off s :=
  deriveCheck_congr off (by simp [State.deriveIssued]) (by simp [State.deriveIssued]) (by simp [State.deriveIssued])

/-- What issuing a DERIVE does before its checks: the model's own fields, nothing of the core's. -/
theorem State.deriveIssued_eq (s : State) (rs1 rs2 : Reg) :
    s.deriveIssued rs1 rs2 =
      { s with
        uninitRead := s.uninitRead || [rs1, rs2].any fun r => !s.written[r.val]
        derivations := if s.offsetOperand rs2 = -1 then [] else s.derivations } := by
  unfold State.deriveIssued State.issueDerive
  split <;> rfl

@[simp] theorem State.deriveIssued_p (s : State) (rs1 rs2 : Reg) : (s.deriveIssued rs1 rs2).p = s.p := by
  rw [State.deriveIssued_eq]
@[simp] theorem State.deriveIssued_crcreg (s : State) (rs1 rs2 : Reg) : (s.deriveIssued rs1 rs2).crcreg = s.crcreg := by
  rw [State.deriveIssued_eq]
@[simp] theorem State.deriveIssued_cursor (s : State) (rs1 rs2 : Reg) : (s.deriveIssued rs1 rs2).cursor = s.cursor := by
  rw [State.deriveIssued_eq]
@[simp] theorem State.deriveIssued_slen (s : State) (rs1 rs2 : Reg) : (s.deriveIssued rs1 rs2).slen = s.slen := by
  rw [State.deriveIssued_eq]
@[simp] theorem State.deriveIssued_scap (s : State) (rs1 rs2 : Reg) : (s.deriveIssued rs1 rs2).scap = s.scap := by
  rw [State.deriveIssued_eq]
@[simp] theorem State.deriveIssued_status (s : State) (rs1 rs2 : Reg) : (s.deriveIssued rs1 rs2).status = s.status := by
  rw [State.deriveIssued_eq]
@[simp] theorem State.deriveIssued_inFlight (s : State) (rs1 rs2 : Reg) : (s.deriveIssued rs1 rs2).inFlight = s.inFlight := by
  rw [State.deriveIssued_eq]
@[simp] theorem State.deriveIssued_resetHeld (s : State) (rs1 rs2 : Reg) : (s.deriveIssued rs1 rs2).resetHeld = s.resetHeld := by
  rw [State.deriveIssued_eq]
@[simp] theorem State.deriveIssued_stream (s : State) (rs1 rs2 : Reg) : (s.deriveIssued rs1 rs2).stream = s.stream := by
  rw [State.deriveIssued_eq]
@[simp] theorem State.deriveIssued_cfg (s : State) (rs1 rs2 : Reg) : (s.deriveIssued rs1 rs2).cfg = s.cfg := by
  rw [State.deriveIssued_eq]
@[simp] theorem State.deriveIssued_written (s : State) (rs1 rs2 : Reg) : (s.deriveIssued rs1 rs2).written = s.written := by
  rw [State.deriveIssued_eq]
@[simp] theorem State.deriveIssued_draws (s : State) (rs1 rs2 : Reg) : (s.deriveIssued rs1 rs2).draws = s.draws := by
  rw [State.deriveIssued_eq]
@[simp] theorem State.deriveIssued_commanded (s : State) (rs1 rs2 : Reg) : (s.deriveIssued rs1 rs2).commanded = s.commanded := by
  rw [State.deriveIssued_eq]
@[simp] theorem State.deriveIssued_inputs (s : State) (rs1 rs2 : Reg) : (s.deriveIssued rs1 rs2).inputs = s.inputs := by
  rw [State.deriveIssued_eq]
@[simp] theorem State.deriveIssued_replies (s : State) (rs1 rs2 : Reg) : (s.deriveIssued rs1 rs2).replies = s.replies := by
  rw [State.deriveIssued_eq]

/-- DERIVE fails a check; or it derives in place; or its append burst faults; or it derives on the extended stream. -/
theorem execDerive_cases (rd rx rs1 rs2 : Reg) (s : State) :
    (∃ c, deriveCheck (s.offsetOperand rs2) s = .error c ∧
      execDerive rd rx rs1 rs2 s = .next ((s.deriveIssued rs1 rs2).raise 0x31 c)) ∨
    (∃ ro, deriveCheck (s.offsetOperand rs2) s = .ok (.inPlace ro) ∧
      execDerive rd rx rs1 rs2 s = .next (deriveFrom 0x31 rd rx (s.crcOperand rs1) ro (s.deriveIssued rs1 rs2))) ∨
    (deriveCheck (s.offsetOperand rs2) s = .ok .append ∧ appendFaults s.cfg s.slen.toNat = true ∧
      execDerive rd rx rs1 rs2 s = .next (((((s.deriveIssued rs1 rs2).setStream
        (s.stream.writeBytes s.slen.toNat (anyFourBytes s.draws))).setDraws (s.draws + 4))).raise 0x31 .ioPort)) ∨
    (deriveCheck (s.offsetOperand rs2) s = .ok .append ∧ appendFaults s.cfg s.slen.toNat = false ∧
      execDerive rd rx rs1 rs2 s =
        .next (deriveFrom 0x31 rd rx (s.crcOperand rs1) s.slen.toNat (s.deriveIssued rs1 rs2).appended)) := by
  have hs : (s.deriveIssued rs1 rs2).stream = s.stream ∧ (s.deriveIssued rs1 rs2).draws = s.draws ∧
      (s.deriveIssued rs1 rs2).slen = s.slen ∧ (s.deriveIssued rs1 rs2).cfg = s.cfg := by simp [State.deriveIssued_eq]
  obtain ⟨hs1, hs2, hs3, hs4⟩ := hs
  unfold execDerive
  simp only [deriveCheck_issued, hs3]
  cases h : deriveCheck (s.offsetOperand rs2) s with
  | error c => exact .inl ⟨c, rfl, rfl⟩
  | ok mode =>
    cases mode with
    | inPlace ro => exact .inr (.inl ⟨ro, rfl, rfl⟩)
    | append =>
      rcases (s.deriveIssued rs1 rs2).appendZeros_cases with ⟨h1, h2⟩ | ⟨h1, h2⟩ <;> rw [hs3, hs4] at h1
      · exact .inr (.inr (.inl ⟨rfl, h1, by simp only [h2, hs1, hs2, hs3]; rfl⟩))
      · exact .inr (.inr (.inr ⟨rfl, h1, by simp only [h2]; rfl⟩))

/-- Which offsets DERIVE's checks let through, and in which mode. -/
theorem resolveOffset_append {off : Int} {L : Nat} : resolveOffset off L = some .append ↔ off = -1 := by
  unfold resolveOffset
  split
  · simp [*]
  · split
    · simp [*]
    · split <;> simp [*]

/-- A resolved offset leaves room for four bytes. -/
theorem resolveOffset_inPlace {off : Int} {L ro : Nat} (h : resolveOffset off L = some (.inPlace ro)) :
    off ≠ -1 ∧ ro + 4 ≤ L ∧ (off = ro ∨ off = (ro : Int) - L) := by
  unfold resolveOffset at h
  split at h
  · cases h
  · split at h
    · cases h; omega
    · split at h
      · cases h; omega
      · cases h

/-! The parts of a step. -/

theorem step_held {s : State} (h : s.resetHeld = true) : step s = stepInReset s := by simp [step, h]

theorem step_busy {s : State} {w : Word} (h : s.resetHeld = false) (hw : s.inFlight = some w) : step s = stepBusy w s := by
  simp [step, h, hw]

theorem step_idle {s : State} (h : s.resetHeld = false) (hw : s.inFlight = none) : step s = stepIdle s := by
  simp [step, h, hw]

/-- A command completes: it is skipped, rejected under one of two names, or run. -/
theorem completeCommand_cases (w : Word) (s : State) :
    (s.status.err ≠ 0 ∧ completeCommand w s = .next (s.setInFlight none).skipCommand) ∨
    (s.status.err = 0 ∧ decode w = .error .illOpcode ∧
      completeCommand w s = .next ((s.setInFlight none).raise (opField w) .illOpcode)) ∨
    (s.status.err = 0 ∧ decode w = .error .illReserved ∧
      completeCommand w s = .next ((s.setInFlight none).raise (opField w) .illReserved)) ∨
    ∃ i, s.status.err = 0 ∧ decode w = .ok i ∧ completeCommand w s = exec i (s.setInFlight none) := by
  unfold completeCommand
  simp only [State.setInFlight_status]
  by_cases h : s.status.err = 0
  · simp only [h, ne_eq, not_true_eq_false, if_false]
    cases hd : decode w with
    | error e =>
      cases e with
      | illOpcode => exact .inr (.inl ⟨trivial, rfl, rfl⟩)
      | illReserved => exact .inr (.inr (.inl ⟨trivial, rfl, rfl⟩))
    | ok i => exact .inr (.inr (.inr ⟨i, trivial, rfl, rfl⟩))
  · exact .inl ⟨h, if_pos h⟩

/-- R86: what the command in flight is, if it is neither skipped nor rejected. -/
theorem State.executing_eq_some {s : State} {i : Instr} :
    s.executing = some i ↔ ∃ w, s.inFlight = some w ∧ s.status.err = 0 ∧ decode w = .ok i := by
  unfold State.executing
  cases s.inFlight with
  | none => simp
  | some w =>
    by_cases h : s.status.err = 0
    · cases hd : decode w <;> simp [h, hd, Except.toOption]
    · simp only [if_pos h]
      exact ⟨fun h' => (by cases h'), fun ⟨_, _, h', _⟩ => absurd h' h⟩

/-- R60: the only offset of STATUS is 0x08. -/
theorem windowReg_status (off : BitVec 8) : windowReg off = some .status ↔ off = 0x08 := by
  revert off; decide +kernel

/-- R31, R61: what a window write can change. -/
theorem State.hostWrite_cases (s : State) (off : BitVec 8) (v : DWord) :
    s.hostWrite off v = s ∨ s.hostWrite off v = (s.setInFlight (some (v.setWidth 32))).setCommanded true ∨
    s.hostWrite off v = s.clearError ∨ s.hostWrite off v = s.setCrcreg (v.setWidth 32) ∨
    s.hostWrite off v = s.setCursor v ∨ s.hostWrite off v = s.writeSlen v ∨
    s.hostWrite off v = s.setScap (Scap.ofWord (v.setWidth 32)) ∨ ∃ n, s.hostWrite off v = s.writeP n v := by
  unfold State.hostWrite State.writeStatus
  split
  · exact .inr (.inl rfl)
  · split
    · exact .inr (.inr (.inl rfl))
    · exact .inl rfl
  · exact .inr (.inr (.inr (.inl rfl)))
  · exact .inr (.inr (.inr (.inr (.inl rfl))))
  · exact .inr (.inr (.inr (.inr (.inr (.inl rfl)))))
  · exact .inr (.inr (.inr (.inr (.inr (.inr (.inl rfl))))))
  · exact .inr (.inr (.inr (.inr (.inr (.inr (.inr ⟨_, rfl⟩))))))
  · exact .inl rfl

/-- R28, R164: a write of SLEN leaves the magic deltas that were good, or none. -/
theorem State.writeSlen_eq (s : State) (v : DWord) :
    s.writeSlen v = { s with slen := v, derivations := if v = s.slen then s.derivations else [] } := by
  unfold State.writeSlen; split <;> rfl

/-- H6, R164: one byte is written, and no magic delta is good after a write below SLEN. -/
theorem State.storeStream_eq (s : State) (a : Nat) (b : Byte) :
    s.storeStream a b =
      { s with stream := s.stream.write a b, derivations := if a < s.slen.toNat then [] else s.derivations } := by
  unfold State.storeStream; split <;> rfl

/-- R160, R175: a patch is made with a magic delta that is good, or refused. -/
theorem State.patchStream_cases (s : State) (ro : DWord) (w : Word) :
    (⟨ro, w⟩ ∈ s.derivations ∧ s.patchStream ro w = .next { s.hostPatch ro.toNat w with derivations := [] }) ∨
    (⟨ro, w⟩ ∉ s.derivations ∧ s.patchStream ro w = .refused .staleMagic) := by
  unfold State.patchStream
  by_cases h : (⟨ro, w⟩ : Derivation) ∈ s.derivations
  · exact .inl ⟨h, by rw [if_pos (by simpa using h)]; rfl⟩
  · exact .inr ⟨h, by rw [if_neg (by simpa using h)]⟩

/-- R59: a window read changes nothing but the mark and the replies. -/
theorem State.hostRead_eq (s : State) (off : BitVec 8) :
    ∃ m, (s.uninitRead = true → m = true) ∧
      s.hostRead off = { s with uninitRead := m, replies := .window off (s.windowValue off) :: s.replies } := by
  unfold State.hostRead State.noteWindowRead
  split
  · exact ⟨_, fun h => by simp [h], rfl⟩
  all_goals exact ⟨s.uninitRead, id, rfl⟩

end Sys2Proof.Machine
end

