-- ==== Sys2Proof/Laws/PerInstr.lean ====
section
/-! SUPPORT. The per-instruction family Encoded: a command is well formed and its word carries its opcode, the byte that
STATUS.ERROP records (R84, R88, R183). -/

namespace Sys2Proof.Laws.Encoded

/-- The command is well formed; its opcode is the one its fields and its encoded word carry. -/
def Statement (i : Instr) : Prop := i.wellFormed = true ∧ i.raw.op = i.opcode ∧ opField (encode i) = i.opcode

/-- R88: the opcode is the low byte of the encoded word, whatever the registers. -/
theorem opField_enc (op : BitVec 8) (rd rs1 rs2 rx : Reg) : opField (enc op rd rs1 rs2 rx) = op := by
  refine BitVec.eq_of_getLsbD_eq fun k hk => ?_
  simp only [opField, enc, BitVec.getLsbD_extractLsb', BitVec.getLsbD_or, BitVec.getLsbD_shiftLeft, BitVec.getLsbD_setWidth]
  simp [hk, show k < 32 by omega, show k < 11 by omega, show k < 14 by omega, show k < 17 by omega]

theorem nop : Statement .nop := ⟨by decide, rfl, opField_enc _ _ _ _ _⟩
theorem crcinit : Statement .crcinit := ⟨by decide, rfl, opField_enc _ _ _ _ _⟩
theorem crcfold (rs1 : Reg) : Statement (.crcfold rs1) := ⟨rfl, rfl, opField_enc _ _ _ _ _⟩
theorem crcfin (rd : Reg) : Statement (.crcfin rd) := ⟨rfl, rfl, opField_enc _ _ _ _ _⟩
theorem crcstrm (rd : Reg) : Statement (.crcstrm rd) := ⟨rfl, rfl, opField_enc _ _ _ _ _⟩
theorem padd (rd rs1 rs2 : Reg) : Statement (.padd rd rs1 rs2) := ⟨rfl, rfl, opField_enc _ _ _ _ _⟩
theorem mulmod (rd rs1 rs2 : Reg) : Statement (.mulmod rd rs1 rs2) := ⟨rfl, rfl, opField_enc _ _ _ _ _⟩
theorem powmod (rd rs1 rs2 : Reg) : Statement (.powmod rd rs1 rs2) := ⟨rfl, rfl, opField_enc _ _ _ _ _⟩
theorem divrem (rd rx rs1 rs2 : Reg) : Statement (.divrem rd rx rs1 rs2) := ⟨rfl, rfl, opField_enc _ _ _ _ _⟩
theorem recip (rd rs1 : Reg) : Statement (.recip rd rs1) := ⟨rfl, rfl, opField_enc _ _ _ _ _⟩
theorem degree (rd rs1 : Reg) : Statement (.degree rd rs1) := ⟨rfl, rfl, opField_enc _ _ _ _ _⟩
theorem rev32 (rd rs1 : Reg) : Statement (.rev32 rd rs1) := ⟨rfl, rfl, opField_enc _ _ _ _ _⟩
theorem delta (rd rs1 rs2 rx : Reg) : Statement (.delta rd rs1 rs2 rx) := ⟨rfl, rfl, opField_enc _ _ _ _ _⟩
theorem derive (rd rx rs1 rs2 : Reg) : Statement (.derive rd rx rs1 rs2) := ⟨rfl, rfl, opField_enc _ _ _ _ _⟩

end Sys2Proof.Laws.Encoded
end

