-- ==== Sys2Proof/Laws/Poly.lean ====
section
/-! SUPPORT. First lemmas of the GF(2) primitives (R9 to R12): the bit length, the carry-less product's linearity, bit
reversal. -/

namespace Sys2Proof.Machine

theorem bitLen_le_iff (a n : Nat) : bitLen a ≤ n ↔ a < 2 ^ n := by
  unfold bitLen
  split
  · subst_vars; simp
  · rw [Nat.add_one_le_iff, Nat.log2_lt ‹_›]

theorem lt_two_pow_bitLen (a : Nat) : a < 2 ^ bitLen a := (bitLen_le_iff a _).1 (Nat.le_refl _)

@[simp] theorem bitLen_zero : bitLen 0 = 0 := rfl

theorem bitLen_two_pow (n : Nat) : bitLen (2 ^ n) = n + 1 := by
  have h : 2 ^ n ≠ 0 := (Nat.two_pow_pos n).ne'
  simp [bitLen, Nat.log2_two_pow]

/-- The bits of b above its length add nothing to a product. -/
theorem clmulTo_of_bitLen_le (a b n : Nat) (h : bitLen b ≤ n) : clmulTo a b n = clmul a b := by
  induction n with
  | zero => rw [clmul, Nat.le_zero.1 h]
  | succ n ih =>
    rcases Nat.lt_or_ge n (bitLen b) with h1 | h1
    · rw [clmul, show bitLen b = n + 1 by omega]
    · have : b.testBit n = false := Nat.testBit_lt_two_pow ((bitLen_le_iff b n).1 h1)
      simp [clmulTo, this, ih h1]

@[simp] theorem clmulTo_zero_left (b n : Nat) : clmulTo 0 b n = 0 := by
  induction n with
  | zero => rfl
  | succ n ih => simp [clmulTo, ih]

@[simp] theorem clmulTo_zero_right (a n : Nat) : clmulTo a 0 n = 0 := by
  induction n with
  | zero => rfl
  | succ n ih => simp [clmulTo, ih]

@[simp] theorem clmul_zero_left (b : Nat) : clmul 0 b = 0 := clmulTo_zero_left _ _

@[simp] theorem clmul_zero_right (a : Nat) : clmul a 0 = 0 := rfl

theorem shiftLeft_xor_left (a b n : Nat) : (a ^^^ b) <<< n = (a <<< n) ^^^ (b <<< n) := Nat.shiftLeft_xor_distrib

theorem clmulTo_xor_left (a b c n : Nat) : clmulTo (a ^^^ b) c n = clmulTo a c n ^^^ clmulTo b c n := by
  induction n with
  | zero => simp [clmulTo]
  | succ n ih =>
    simp only [clmulTo, ih]
    split
    · rw [shiftLeft_xor_left]; ac_rfl
    · simp

theorem clmulTo_xor_right (a b c n : Nat) : clmulTo a (b ^^^ c) n = clmulTo a b n ^^^ clmulTo a c n := by
  induction n with
  | zero => simp [clmulTo]
  | succ n ih =>
    simp only [clmulTo, ih, Nat.testBit_xor]
    cases b.testBit n <;> cases c.testBit n <;> simp [Nat.xor_assoc, Nat.xor_left_comm, Nat.xor_comm]

theorem clmul_xor_left (a b c : Nat) : clmul (a ^^^ b) c = clmul a c ^^^ clmul b c := clmulTo_xor_left _ _ _ _

theorem clmul_xor_right (a b c : Nat) : clmul a (b ^^^ c) = clmul a b ^^^ clmul a c := by
  have hb := lt_two_pow_bitLen b
  have hc := lt_two_pow_bitLen c
  have hx : b ^^^ c < 2 ^ max (bitLen b) (bitLen c) :=
    Nat.xor_lt_two_pow (hb.trans_le (Nat.pow_le_pow_right (by decide) (Nat.le_max_left _ _)))
      (hc.trans_le (Nat.pow_le_pow_right (by decide) (Nat.le_max_right _ _)))
  rw [← clmulTo_of_bitLen_le a (b ^^^ c) _ ((bitLen_le_iff _ _).2 hx), clmulTo_xor_right,
    clmulTo_of_bitLen_le _ _ _ (Nat.le_max_left _ _), clmulTo_of_bitLen_le _ _ _ (Nat.le_max_right _ _)]

/-- A product with a power of x is a shift. -/
theorem clmul_two_pow (a n : Nat) : clmul a (2 ^ n) = a <<< n := by
  have h : ∀ k, k ≤ n → clmulTo a (2 ^ n) k = 0 := by
    intro k
    induction k with
    | zero => intro _; rfl
    | succ k ih =>
      intro hk
      have : (2 ^ n).testBit k = false := by
        rw [Nat.testBit_two_pow]; exact decide_eq_false (by omega)
      simp [clmulTo, ih (by omega), this]
  rw [clmul, bitLen_two_pow, clmulTo, h n (Nat.le_refl _), Nat.testBit_two_pow]
  simp

@[simp] theorem clmul_one (a : Nat) : clmul a 1 = a := clmul_two_pow a 0

theorem deg_zero : deg 0 = -1 := rfl

/-- R10: a degree below n, for n ≥ 0, is a value below 2^n. -/
theorem deg_lt_iff (a n : Nat) : deg a < n ↔ a < 2 ^ n := by
  unfold deg
  split
  · subst_vars; simp; omega
  · rw [Int.ofNat_lt, Nat.log2_lt ‹_›]

/-! Bit reversal. -/

theorem getLsbD_rev32 (v : Word) (i : Nat) (h : i < 32) : (rev32 v).getLsbD i = v.getLsbD (31 - i) := by
  simp only [rev32, BitVec.getLsbD_reverse, BitVec.getMsbD, h, decide_true, Bool.true_and]

theorem rev32_rev32 (v : Word) : rev32 (rev32 v) = v := by simp [rev32]

theorem rev32_xor (v w : Word) : rev32 (v ^^^ w) = rev32 v ^^^ rev32 w := by
  refine BitVec.eq_of_getLsbD_eq fun i h => ?_
  simp only [getLsbD_rev32 _ i h, BitVec.getLsbD_xor]

end Sys2Proof.Machine
end

