-- ==== Sys2Proof/Tests/Slice0.lean ====
section
/-! SUPPORT. The model's own tests. Words are written out bit by bit from the "encoding" strings of the opcode table; values are
those of 95_test_vectors.md, named by their ids there. The witnesses at the end show, for every statement with hypotheses,
a state and operands that meet them together. -/

namespace Sys2Proof.Tests

/- One theorem at a time: many kernel evaluations waiting on one another would each hold a thread. -/
set_option Elab.async false

open Sys2Proof.Machine Sys2Proof.Spec

/-! Helpers. -/

/-- The outcome is a next state of which P holds. -/
def nextHas (o : Host.Outcome State Fault Refusal) (P : State → Bool) : Bool :=
  match o with
  | .next t => P t
  | .fault _ => false
  | .refused _ => false

theorem exists_next {o : Host.Outcome State Fault Refusal} {P : State → Bool} (h : nextHas o P = true) :
    ∃ t, o = .next t ∧ P t = true := by
  cases o with
  | next t => exact ⟨t, rfl, h⟩
  | fault r => cases h
  | refused r => cases h

/-- A state just after reset with these operand registers written. -/
def withP (p : Vector DWord 8) : State :=
  { State.reset with p := p, written := #v[true, true, true, true, true, true, true, true] }

/-- A state with these bytes attached as a stream that supports everything. -/
def withStream (bytes : List Byte) (p : Vector DWord 8) : State :=
  { withP p with
    stream := bytes.zipIdx.map fun c => (c.2, c.1), slen := BitVec.ofNat 64 bytes.length, scap := ⟨true, true, true, true⟩ }

/-- "abc" (V-K6). -/
def abc : State := withStream [0x61, 0x62, 0x63] #v[0, 0, 0, 0, 0, 0, 0, 0]

/-- The 20-byte stream X20 of 95_test_vectors.md with P1 = des and P2 = offset. -/
def x20 (des off : DWord) : State :=
  withStream [0x4d, 0x41, 0x47, 0x49, 0x43, 0x2d, 0x43, 0x52, 0x43, 0x2d, 0x54, 0x45, 0x53, 0x54, 0x2d, 0x30, 0xc9, 0xa0,
    0xab, 0x88] #v[0, des, off, 0, 0, 0, 0, 0]

/-- A state with a word in flight and these inputs to come. -/
def busy (s : State) (w : Word) (l : List Input) : State := { s with inFlight := some w, commanded := true, inputs := l }

/-- A state with an error recorded (program P4). -/
def broken : State := { withP #v[5, 0, 0, 0, 0, 0, 0, 0] with status := ⟨false, 2, 0x21, 0x23⟩ }

/-- A platform with a capacity and faulting regions. -/
def platform (cap : Nat) (r w : List (Nat × Nat)) : Config := { streamCap := cap, readFaults := r, writeFaults := w }

/-- A host program's run has, or has not, reached its end, in a state of which P holds. -/
def reaches (o : Host.Outcome (State × Bool) Fault Refusal) (reached : Bool) (P : State → Bool) : Bool :=
  match o with
  | .next (t, b) => b == reached && P t
  | .fault _ => false
  | .refused _ => false

/-- The outcome is the refusal of a patch. -/
def isStale (o : Host.Outcome State Fault Refusal) : Bool :=
  match o with
  | .refused r => r == .staleMagic
  | .next _ => false
  | .fault _ => false

/-! Well-formedness: each check refuses an ill-formed term. -/

theorem test_illformed_opcode : RawCmd.wellFormed ⟨0x01, 0, 0, 0, 0, 0⟩ = false := by decide
theorem test_illformed_rsv : RawCmd.wellFormed ⟨0x20, 0, 0, 0, 0, 1⟩ = false := by decide
theorem test_illformed_rd : RawCmd.wellFormed ⟨0x11, 1, 0, 0, 0, 0⟩ = false := by decide
theorem test_illformed_rs1 : RawCmd.wellFormed ⟨0x12, 0, 1, 0, 0, 0⟩ = false := by decide
theorem test_illformed_rs2 : RawCmd.wellFormed ⟨0x24, 0, 0, 1, 0, 0⟩ = false := by decide
theorem test_illformed_rx : RawCmd.wellFormed ⟨0x22, 0, 0, 0, 1, 0⟩ = false := by decide

/-! Decoding: one word per constructor, from the table's encoding string with register numbers put in, and rejections. -/

theorem test_decode_nop : decode 0b00000000000000000000000000000000 = .ok .nop := by decide
theorem test_decode_crcinit : decode 0b00000000000000000000000000010000 = .ok .crcinit := by decide
theorem test_decode_crcfold : decode 0b00000000000000000010100000010001 = .ok (.crcfold 5) := by decide
theorem test_decode_crcfin : decode 0b00000000000000000000001100010010 = .ok (.crcfin 3) := by decide
theorem test_decode_crcstrm : decode 0b00000000000000000000010000010011 = .ok (.crcstrm 4) := by decide
theorem test_decode_padd : decode 0b00000000000000011001000100100000 = .ok (.padd 1 2 6) := by decide
theorem test_decode_mulmod : decode 0b00000000000000011001000100100001 = .ok (.mulmod 1 2 6) := by decide
theorem test_decode_powmod : decode 0b00000000000000011001000100100010 = .ok (.powmod 1 2 6) := by decide
theorem test_decode_divrem : decode 0b00000000000010111001000100100011 = .ok (.divrem 1 5 2 6) := by decide
theorem test_decode_recip : decode 0b00000000000000000001000100100100 = .ok (.recip 1 2) := by decide
theorem test_decode_degree : decode 0b00000000000000000001000100100101 = .ok (.degree 1 2) := by decide
theorem test_decode_rev32 : decode 0b00000000000000000001000100100110 = .ok (.rev32 1 2) := by decide
theorem test_decode_delta : decode 0b00000000000010111001000100110000 = .ok (.delta 1 2 6 5) := by decide
theorem test_decode_derive : decode 0b00000000000010111001000100110001 = .ok (.derive 1 5 2 6) := by decide
theorem test_decode_unassigned : decode 0x00000001 = .error .illOpcode := by decide
theorem test_decode_unused_field : decode 0x00000111 = .error .illReserved := by decide
theorem test_decode_reserved_bit : decode 0x80000010 = .error .illReserved := by decide
theorem test_encode_divrem : encode (.divrem 2 3 0 1) = 0x00064223 := by decide
theorem test_table_word : decodeTableWord 32 0x00097730 = some (.delta 7 6 5 4) := by decide
theorem test_assemble : assemble "DivRem" ["P2", "p3", "p0", "p1"] = some 0x00064223 := by decide +kernel
theorem test_assembly : assembly (.divrem 2 3 0 1) = "DIVREM p2, p3, p0, p1" := by decide +kernel

/-! Each instruction, as a step with its word in flight. -/

/-- V-N1. -/
theorem test_nop : nextHas (step ((withP #v[1, 2, 3, 4, 5, 6, 7, 8]).withFetchWord 32 0x00000000))
    (· == { withP #v[1, 2, 3, 4, 5, 6, 7, 8] with commanded := true }) = true := by decide +kernel
/-- V-N10: skipped, SKIP set, first error kept. -/
theorem test_nop_skipped : nextHas (step (broken.withFetchWord 32 0x00000000)) (fun t => t.statusWord == 0x00232122) = true := by
  decide +kernel
/-- V-N4. -/
theorem test_illegal_word : nextHas (step ((withP #v[0, 0, 0, 0, 0, 0, 0, 0]).withFetchWord 32 0x00000100))
    (fun t => t.statusWord == 0x00004240) = true := by decide +kernel
/-- V-K1. -/
theorem test_crcinit : nextHas (step ({ State.reset with crcreg := 0x12345678 }.withFetchWord 32 0x00000010))
    (fun t => t.crcreg == 0xFFFFFFFF) = true := by decide +kernel
/-- V-K3: only bits 7:0 are used. -/
theorem test_crcfold : nextHas (step ((withP #v[0xFFFFFFFF0001FF61, 0, 0, 0, 0, 0, 0, 0]).withFetchWord 32 0x00000011))
    (fun t => t.crcreg == 0x174841BC) = true := by decide +kernel
/-- V-K4. -/
theorem test_crcfin : nextHas (step ({ State.reset with crcreg := 0xCADBBE3D }.withFetchWord 32 0x00000312))
    (fun t => t.readP 3 == 0x352441C2 && t.crcreg == 0xCADBBE3D) = true := by decide +kernel
/-- V-K7: from the cursor. -/
theorem test_crcstrm : nextHas (step ({ abc with cursor := 1 }.withFetchWord 32 0x00000413))
    (fun t => t.readP 4 == 0xC2A92B38 && t.crcreg == 0x3D56D4C7 && t.cursor == 3) = true := by decide +kernel
/-- V-K14: IO_PORT on the second byte. -/
theorem test_crcstrm_port : nextHas (step ({ abc with cfg := platform 8 [(1, 2)] [] }.withFetchWord 32 0x00000413))
    (fun t => t.statusWord == 0x00133630 && t.crcreg == 0xFFFFFFFF && t.cursor == 0) = true := by decide +kernel
/-- V-A1, the destination also a source. -/
theorem test_padd : nextHas (step ((withP #v[0, 0, 0, 0, 0xF440F8EB, 0xFFFFFFFF, 0, 0]).withFetchWord 32 0x00016420))
    (fun t => t.readP 4 == 0x0BBF0714) = true := by decide +kernel
/-- V-M8: both operands unreduced, a product of 127 bits. -/
theorem test_mulmod : nextHas (exec (.mulmod 4 0 1) (withP #v[0xFFFFFFFFFFFFFFFF, 0xFFFFFFFFFFFFFFFF, 0, 0, 0, 0, 0, 0]))
    (fun t => t.readP 4 == 0x37DEBB54) = true := by decide +kernel
/-- V-P18: an unreduced base. -/
theorem test_powmod : nextHas (exec (.powmod 4 0 1) (withP #v[0xFFFFFFFFFFFFFFFF, 3, 0, 0, 0, 0, 0, 0]))
    (fun t => t.readP 4 == 0x5E5AE864) = true := by decide +kernel
/-- V-P16: the largest exponent. -/
theorem test_powmod_max : nextHas (exec (.powmod 4 0 1) (withP #v[2, 0xFFFFFFFFFFFFFFFF, 0, 0, 0, 0, 0, 0]))
    (fun t => t.readP 4 == 1) = true := by decide +kernel
/-- V-V11: rd = rx ends with the remainder. -/
theorem test_divrem : nextHas (step ((withP #v[0x104C11DB7, 2, 0, 0, 0, 0, 0, 0]).withFetchWord 32 0x00044223))
    (fun t => t.readP 2 == 1) = true := by decide +kernel
/-- V-V4: ARI_DIV0. -/
theorem test_divrem_zero : nextHas (step ((withP #v[5, 0, 7, 7, 0, 0, 0, 0]).withFetchWord 32 0x00064223))
    (fun t => t.statusWord == 0x00232120 && t.readP 2 == 7 && t.readP 3 == 7) = true := by decide +kernel
/-- V-R12: an unreduced operand. -/
theorem test_recip : nextHas (exec (.recip 1 0) (withP #v[0x100000000, 0, 0, 0, 0, 0, 0, 0]))
    (fun t => t.readP 1 == 0xCBF1ACDA) = true := by decide +kernel
/-- V-R6: ARI_NORECIP. -/
theorem test_recip_fails : nextHas (exec (.recip 1 0) (withP #v[0x209823B6E, 0, 0, 0, 0, 0, 0, 0]))
    (fun t => t.statusWord == 0x00242220 && t.readP 1 == 0) = true := by decide +kernel
/-- V-G1: −1. -/
theorem test_degree : nextHas (exec (.degree 1 0) (withP #v[0, 0, 0, 0, 0, 0, 0, 0]))
    (fun t => t.readP 1 == 0xFFFFFFFFFFFFFFFF) = true := by decide +kernel
/-- V-B7: bits 63:32 ignored. -/
theorem test_rev32 : nextHas (exec (.rev32 1 0) (withP #v[0xABCD00000001, 0, 0, 0, 0, 0, 0, 0]))
    (fun t => t.readP 1 == 0x80000000) = true := by decide +kernel
/-- V-D1. -/
theorem test_delta : nextHas (step ((withP #v[0x9988C6CA, 0xFFFFFFFF, 0x20, 0, 0, 0, 0, 0]).withFetchWord 32 0x00044030))
    (fun t => t.readP 0 == 0x8A59D0A2) = true := by decide +kernel
/-- S10: append. -/
theorem test_derive_append : nextHas (step ((x20 0 0xFFFFFFFFFFFFFFFF).withFetchWord 32 0x00068831))
    (fun t => t.readP 0 == 0xA73AB7FE && t.readP 3 == 20 && t.slen == 24 && t.cursor == 24 && t.crcreg == 0x5092782D &&
      t.streamBytes 20 4 == [0, 0, 0, 0] && t.status == Status.clear) = true := by decide +kernel
/-- S3: in place, offset −4. -/
theorem test_derive_inplace : nextHas (step ((x20 0 0xFFFFFFFFFFFFFFFC).withFetchWord 32 0x00068831))
    (fun t => t.readP 0 == 0xF4B0E35B && t.readP 3 == 16 && t.slen == 20 && t.crcreg == 0xEDCBA987 &&
      (t.hostPatch 16 0xDAC70D2F).streamBytes 16 4 == [0xe6, 0xad, 0x6c, 0x52]) = true := by decide +kernel

/-! The host side. -/

/-- A CMD write, a STATUS read while busy, and one after the command has completed: BUSY reads 1, then 0. -/
theorem test_busy_polls : nextHas (Host.Core.run core 4
    { abc with inputs := [.windowWrite 0x00 0x413, .windowRead 0x08, .elapse, .windowRead 0x08] })
    (fun t => t.replies == [.window 0x08 0, .window 0x08 1] && t.readP 4 == 0x352441C2) = true := by decide +kernel
/-- An operand register that nothing has written reads its reset value, and the read marks the state (R23). -/
theorem test_unwritten_read : nextHas (step { State.reset with inputs := [.windowRead 0x50] })
    (fun t => t.replies == [.window 0x50 0] && t.uninitRead) = true := by decide +kernel
/-- S2 through the host program of R89: its end is reached, the four bytes are patched, P4 is the patch word. -/
theorem test_apply_patch : reaches ((applyPatch 0 3 1 2 4 0xDEADBEEF 0).run (x20 0 0)) true
    (fun t => t.streamBytes 0 5 == [0xd6, 0x39, 0xfa, 0xbc, 0x43] && t.readP 4 == 0xF5BD789B && t.readP 3 == 0) = true := by
  decide +kernel
/-- S10 through the host program of R89, with the default offset APPEND. -/
theorem test_apply_patch_append : reaches ((applyPatch 0 3 1 2 4 0).run (x20 0 0)) true
    (fun t => t.streamBytes 19 5 == [0x88, 0xe5, 0x5c, 0xed, 0x7f] && t.slen == 24) = true := by decide +kernel
/-- V-K6 through the host program of R89. -/
theorem test_compute_checksum : reaches ((computeChecksum 4).run abc) true (fun t => t.readP 4 == 0x352441C2) = true := by
  decide +kernel
/-- V-O7: with offset −2 the test of STATUS.ERR makes the host give up, and nothing is patched. -/
theorem test_macro_fails : reaches ((applyPatch 0 3 1 2 4 0 (-2)).run (x20 0 0)) false
    (fun t => t.statusWord == 0x00311310 && t.stream == (x20 0 0).stream) = true := by decide +kernel
/-- R175, R217: the host writes a stream byte between a DERIVE (S2) and its patch, and the patch has no move. -/
theorem test_stale_magic : isStale (Host.Core.run core 4
    { x20 0xDEADBEEF 0 with inputs := [.windowWrite 0x00 0x68831, .elapse, .streamWrite 9 0, .patch 0 0xF5BD789B] }) = true := by
  decide +kernel

/-- Every window offset falls under exactly one clause of the WindowMap statement. -/
theorem test_window_offsets : ∀ off : BitVec 8,
    (off = 0x00 ∨ off = 0x08 ∨ off = 0x10 ∨ off = 0x18 ∨ off = 0x20 ∨ off = 0x28 ∨
      (∃ n : Reg, off.toNat = 0x40 + 8 * n.val) ∨
      (off.toNat % 8 ≠ 0 ∨ off.toNat = 0x30 ∨ off.toNat = 0x38 ∨ 0x80 ≤ off.toNat)) ∧
    ((∃ n : Reg, off.toNat = 0x40 + 8 * n.val) →
      ¬(off.toNat % 8 ≠ 0 ∨ off.toNat = 0x30 ∨ off.toNat = 0x38 ∨ 0x80 ≤ off.toNat)) := by decide +kernel

/-! Witnesses: the hypotheses of the statements can be met. -/

theorem witness_DecodedWordIsTheEncoding : decode 0x00064223 = .ok (.divrem 2 3 0 1) := by decide

/-- Completes, each way: time passes, nothing more is to come, an access waits. -/
theorem witness_Completes : Completes (busy abc 0x413 [.elapse]) 0x413 [] ∧ Completes (busy abc 0x413 []) 0x413 [] ∧
    Completes (busy abc 0x413 [.windowRead 0x10]) 0x413 [.windowRead 0x10] ∧ abc.status.err = 0 ∧
    decode 0x413 = .ok (.crcstrm 4) :=
  ⟨⟨rfl, rfl, .inl rfl⟩, ⟨rfl, rfl, .inr ⟨rfl, by decide⟩⟩, ⟨rfl, rfl, .inr ⟨rfl, by decide⟩⟩, by decide, by decide⟩
theorem witness_Completes_status : waitsForBusy (.windowRead 0x09) = true ∧ waitsForBusy (.windowRead 0x08) = false := by decide

theorem witness_Word_skipped : Completes (busy broken 0xFF [.elapse]) 0xFF [] ∧ broken.status.err ≠ 0 :=
  ⟨⟨rfl, rfl, .inl rfl⟩, by decide⟩
theorem witness_Word_opcode : (RawCmd.ofWord 0x01).assigned = false ∧ (RawCmd.ofWord 0x32).assigned = false := by decide
theorem witness_Word_reserved : (RawCmd.ofWord 0x00100020).assigned = true ∧ (RawCmd.ofWord 0x00100020).unusedZero = false := by
  decide
theorem witness_Word_runs : (RawCmd.ofWord 0x000FFF31).assigned = true ∧ (RawCmd.ofWord 0x000FFF31).unusedZero = true := by decide

theorem witness_StatusWriteClears : ∃ s : State, ∃ v w : DWord, Idle s ∧ s.inputs = [.windowWrite 0x08 v] ∧
    v.getLsbD 2 = true ∧ w.getLsbD 2 = false ∧ s.status.err ≠ 0 ∧ (∃ t, step s = .next t) ∧ decode 0x421 = .ok (.mulmod 4 0 0) :=
  ⟨{ broken with inputs := [.windowWrite 0x08 4] }, 4, 0xFFFFFFFFFFFFFFFB, ⟨rfl, rfl⟩, rfl, by decide, by decide, by decide,
    (exists_next (P := fun _ => true) (by decide +kernel)).imp fun _ h => h.1, by decide⟩

/-- RaisingAnErrorIsPrecise and CommandsRaiseOnlyTheirCauses: a DIVREM by 0 in flight. -/
theorem witness_Raising : ∃ s t : State, Completes s 0x00064223 [] ∧ s.status.err = 0 ∧ step s = .next t ∧ t.status.err ≠ 0 ∧
    ∀ rd rx rs1 rs2, decode 0x00064223 = .ok (.derive rd rx rs1 rs2) → s.offsetOperand rs2 ≠ -1 := by
  obtain ⟨t, h, ht⟩ := exists_next (o := step (busy (withP #v[5, 0, 0, 0, 0, 0, 0, 0]) 0x00064223 [.elapse]))
    (P := fun t => t.status.err != 0) (by decide +kernel)
  exact ⟨_, t, ⟨rfl, rfl, .inl rfl⟩, rfl, h, by simpa using ht, fun _ _ _ _ h => by
    rw [show decode 0x00064223 = .ok (.divrem 2 3 0 1) by decide] at h; cases h⟩
theorem witness_CommandsRaise : ∃ t, exec (.divrem 2 3 0 1) (withP #v[5, 0, 0, 0, 0, 0, 0, 0]) = .next t ∧
    (t.status.err != 0) = true := exists_next (by decide +kernel)

theorem witness_WindowMap : Idle { abc with inputs := [.windowRead 0x78] } ∧ Idle { abc with inputs := [.windowWrite 0xFF 1] } :=
  ⟨⟨rfl, rfl⟩, ⟨rfl, rfl⟩⟩

theorem witness_StatusReadWhileBusy : (busy abc 0x413 [.windowRead 0x08]).resetHeld = false ∧
    (busy abc 0x413 [.windowRead 0x08]).inFlight = some 0x413 := by decide
theorem witness_AccessWaits : (busy abc 0x413 [.windowWrite 0x00 0x413]).resetHeld = false ∧
    waitsForBusy (.windowWrite 0x00 0x413) = true := by decide

/-- AssertingReset, the clauses of the mark and of the stream: an append DERIVE in flight, none, and a DERIVE whose offset
register nothing has written. -/
theorem witness_AssertingReset : (busy (x20 0 0xFFFFFFFFFFFFFFFF) 0x00068831 [.assertReset]).resetHeld = false ∧
    (busy (x20 0 0xFFFFFFFFFFFFFFFF) 0x00068831 [.assertReset]).appendInFlight = true ∧
    (busy (x20 0 0) 0x00068831 [.assertReset]).appendInFlight = false ∧
    (busy State.reset 0x00068831 [.assertReset]).appendInFlight = true ∧
    (2 : Reg) ∈ (Instr.derive 0 3 1 2).sources ∧ State.reset.written[2] = false := by decide +kernel
theorem witness_WindowWaits : ∃ s t : State, s.resetHeld = true ∧ s.inputs = [.windowRead 0x08, .releaseReset] ∧
    isWindowAccess (.windowRead 0x08) = true ∧ step s = .next t ∧ (t.resetHeld == false) = true := by
  obtain ⟨t, h⟩ := exists_next (o := step { State.reset with resetHeld := true, inputs := [.windowRead 0x08, .releaseReset] })
    (P := fun t => t.resetHeld == false) (by decide +kernel)
  exact ⟨_, t, rfl, rfl, rfl, h.1, h.2⟩

theorem witness_WindowReleased : ∃ s : State, s.resetHeld = true ∧ s.inputs = [.releaseReset] :=
  ⟨{ State.reset with resetHeld := true, inputs := [.releaseReset] }, rfl, rfl⟩

/-- EveryStepKeepsInvariant: a state in which a magic delta is good meets the invariant. -/
theorem witness_DerivationInvariant : ({ x20 0 0 with derivations := [⟨16, 7⟩] } : State).Inv :=
  ⟨by decide, by decide, by decide +kernel, by decide, (fun h => by cases h), (fun _ => ⟨rfl, rfl⟩),
    (fun d h => by simp only [List.mem_singleton] at h; subst h; decide)⟩

/-- EveryStepKeepsInvariant, StepsKeepPlatformAndHistory: a state with a stream attached meets the invariant, and steps. -/
theorem witness_Invariant : (busy abc 0x413 [.elapse]).Inv ∧ ∃ t, step (busy abc 0x413 [.elapse]) = .next t :=
  ⟨⟨by decide, by decide, by decide, by decide, (fun h => by cases h), (fun h => by cases h), (fun d h => by cases h)⟩,
    (exists_next (P := fun _ => true) (by decide +kernel)).imp fun _ h => h.1⟩
/-- The invariant's clause about a held reset is met by a state that is held. -/
theorem witness_HeldInvariant : ({ State.reset with resetHeld := true } : State).Inv :=
  ⟨by decide, by decide, by decide, by decide, (fun _ => ⟨rfl, rfl, rfl, rfl, rfl, rfl⟩), (fun _ => ⟨rfl, rfl⟩),
    (fun d h => by cases h)⟩
theorem witness_HostStream : Idle { abc with inputs := [.streamRead 2] } ∧ (2 : DWord).toNat < abc.cfg.streamCap := by
  exact ⟨⟨rfl, rfl⟩, by decide⟩
/-- StepStopsOnlyOnHostStreamAction and StaleMagicHasNoMove: a patch that is good, one that is not. -/
theorem witness_Patch : Idle { x20 0 0 with inputs := [.patch 0 7], derivations := [⟨0, 7⟩] } ∧
    (⟨0, 7⟩ : Derivation) ∈ ({ x20 0 0 with derivations := [⟨0, 7⟩] } : State).derivations ∧
    (⟨0, 7⟩ : Derivation) ∉ (x20 0 0).derivations := ⟨⟨rfl, rfl⟩, by decide, by decide⟩
/-- StaleMagicHasNoMove: the last byte below SLEN, another SLEN, reset. -/
theorem witness_Stale : Idle { x20 0 0 with inputs := [.streamWrite 19 0] } ∧ (19 : DWord).toNat < (x20 0 0).slen.toNat ∧
    (19 : DWord).toNat < (x20 0 0).cfg.streamCap ∧ (21 : DWord) ≠ (x20 0 0).slen ∧
    Idle { x20 0 0 with inputs := [.windowWrite 0x20 21] } ∧ Idle { x20 0 0 with inputs := [.assertReset] } :=
  ⟨⟨rfl, rfl⟩, by decide, by decide, by decide, ⟨rfl, rfl⟩, ⟨rfl, rfl⟩⟩
/-- StaleMagicHasNoMove: a DERIVE that fails. -/
theorem witness_DeriveFails : State.reset.cfg.wf ∧ State.reset.status.err = 0 ∧
    ∃ t, exec (.derive 0 3 1 2) State.reset = .next t ∧ (t.status.err != 0) = true :=
  ⟨by decide, by decide, exists_next (by decide +kernel)⟩

/-- "abc" attached by the host's actions of R174 on a core just reset, with a CRCSTRM for the run's action. -/
def launch : State :=
  { State.reset with
    stream := [(0, 0x61), (1, 0x62), (2, 0x63)], slen := 3, scap := ⟨true, true, true, true⟩
    inputs := [.windowWrite 0x00 0x413, .elapse] }
theorem test_attach_launches : nextHas (Host.Core.run core 6 { State.reset with inputs := attachStream [0x61, 0x62, 0x63] 0xF 0 })
    (fun t => { t with inputs := launch.inputs } == launch) = true := by decide +kernel
/-- R176, R177: the launch premises can be met together, and a run from there succeeds. -/
theorem witness_Launch : launch.LaunchReset ∧ launch.LaunchAttached ∧ ∃ stop, RunSucceeds launch 2 stop := by
  obtain ⟨stop, h, hp⟩ := exists_next (o := Host.Core.run core 2 launch.startRun)
    (P := fun t => t.inputs == [] && t.inFlight == none && !t.resetHeld && t.status.err == 0 && !t.uninitRead) (by decide +kernel)
  simp only [Bool.and_eq_true, beq_iff_eq, Bool.not_eq_true'] at hp
  obtain ⟨⟨⟨⟨h1, h2⟩, h3⟩, h4⟩, h5⟩ := hp
  exact ⟨⟨rfl, rfl⟩, ⟨rfl, by decide⟩, stop, ⟨h, h1, h2, h3⟩, h4, h5⟩

/-- WhichCommandsWriteWhat: an append DERIVE changes CRCREG, CURSOR, SLEN and the stream. -/
theorem witness_WhichCommands : ∃ t, exec (.derive 0 3 1 2) (x20 0 0xFFFFFFFFFFFFFFFF) = .next t ∧
    (t.crcreg != 0xFFFFFFFF && t.cursor != 0 && t.slen != 20 && t.stream.length != 20) = true :=
  exists_next (by decide +kernel)
theorem witness_CrcCommands : (∃ t, exec (.crcfold 0) abc = .next t) ∧ ∃ t, exec (.crcstrm 4) abc = .next t :=
  ⟨⟨_, rfl⟩, (exists_next (P := fun _ => true) (by decide +kernel)).imp fun _ h => h.1⟩
theorem witness_NopReserved : (0x00000100 : Word).extractLsb' 0 8 = 0 ∧ (0x00000100 : Word) ≠ 0 := by decide

/-- CrcstrmResult, each clause: no stream; SLEN one above STREAM_CAP; not readable at SLEN = STREAM_CAP; a fault on the
last byte; none; nothing to read. -/
theorem witness_Crcstrm_null : State.reset.scap.present = false := rfl
theorem witness_Crcstrm_range : ({ abc with slen := 5, cfg := platform 4 [] [] } : State).cfg.streamCap < 5 := by decide
theorem witness_Crcstrm_noread : ∃ s : State, s.scap.present = true ∧ s.slen.toNat ≤ s.cfg.streamCap ∧ s.scap.read = false :=
  ⟨{ abc with slen := 4, cfg := platform 4 [] [], scap := ⟨true, false, true, true⟩ }, by decide, by decide, by decide⟩
theorem witness_Crcstrm_port : ∃ s : State, s.scap.present = true ∧ s.slen.toNat ≤ s.cfg.streamCap ∧ s.scap.read = true ∧
    ∃ a, s.cursor.toNat ≤ a ∧ a < s.slen.toNat ∧ portFault s.cfg .read a = true :=
  ⟨{ abc with cfg := platform 4 [(2, 3)] [] }, by decide, by decide, by decide, 2, by decide, by decide, by decide⟩
theorem witness_Crcstrm_reads : abc.scap.present = true ∧ abc.slen.toNat ≤ abc.cfg.streamCap ∧ abc.scap.read = true ∧
    ∀ a, abc.cursor.toNat ≤ a → a < abc.slen.toNat → portFault abc.cfg .read a = false :=
  ⟨by decide, by decide, by decide, fun _ _ _ => rfl⟩
theorem witness_Crcstrm_empty : ({ abc with cursor := 3 } : State).slen.toNat ≤ 3 := by decide

theorem witness_Remainder : ([0x61] : List Byte).length = ([0xFF] : List Byte).length := rfl
theorem witness_Division : generator ≠ 0 ∧ (5 : Nat) = clmul 3 3 ^^^ 0 ∧ deg 0 < deg 3 := by decide +kernel
theorem witness_Powmod : pmod generator generator = 0 ∧ (1 : Nat) ≤ 2 ^ 64 - 1 ∧ (2 ^ 64 - 2) + 1 < 2 ^ 64 := by decide +kernel
theorem witness_Divrem : (withP #v[5, 0, 0, 0, 0, 0, 0, 0]).p[1] = 0 ∧ (withP #v[5, 0, 0, 0, 0, 0, 0, 0]).p[0] ≠ 0 ∧
    deg 3 < deg 7 ∧ (withP #v[1, 0, 0, 0, 0, 0, 0, 0]).p[0] = 1 := by decide +kernel
theorem witness_Recip : pmod generator generator = 0 ∧ pmod (2 ^ 64 - 1) generator ≠ 0 ∧ Reduced 1 ∧ mulmod 1 1 = 1 ∧
    (2 ^ 64 - 1 < 2 ^ 64 ∧ 34 ≤ 34) := by decide +kernel
theorem witness_Degree : (withP #v[5, 0, 0, 0, 0, 0, 0, 0]).p[1] = 0 ∧ (withP #v[5, 0, 0, 0, 0, 0, 0, 0]).p[0] ≠ 0 := by decide
theorem witness_Reduced : Reduced (2 ^ 32 - 1) ∧ ¬Reduced (2 ^ 32) := by decide
theorem witness_Primitive : 0 < 2 ^ 32 - 2 ∧ 2 ^ 32 - 2 < 2 ^ 32 - 1 ∧ (2 ^ 64 - 1 : Nat) < 2 ^ 64 := by decide
theorem witness_Gf2 : isGf2 (.recip 1 0) = true ∧ ∃ t, exec (.recip 1 0) (withP #v[0, 0, 0, 0, 0, 0, 0, 0]) = .next t :=
  ⟨rfl, (exists_next (P := fun _ => true) (by decide +kernel)).imp fun _ h => h.1⟩
theorem witness_Delta : (withP #v[7, 7, 0, 0, 0, 0, 0, 0]).p[0].setWidth 32 = (withP #v[7, 7, 0, 0, 0, 0, 0, 0]).p[1].setWidth 32 ∧
    (withP #v[7, 7, 0, 0, 0, 0, 0, 0]).p[2] = 0 := by decide

/-- OffsetsResolve: the boundary of each row for L = 20, and the rejected values next to them (V-O1 to V-O11). -/
theorem witness_Offsets : resolveOffset (-1) 20 = some .append ∧ resolveOffset 0 20 = some (.inPlace 0) ∧
    resolveOffset 16 20 = some (.inPlace 16) ∧ resolveOffset (-4) 20 = some (.inPlace 16) ∧
    resolveOffset (-20) 20 = some (.inPlace 0) ∧ resolveOffset (-2) 20 = none ∧ resolveOffset (-3) 20 = none ∧
    resolveOffset 17 20 = none ∧ resolveOffset (-21) 20 = none ∧ resolveOffset 0 3 = none := by decide

/-- DeriveChecksInOrder: a state for each check, each failing that one first. -/
theorem witness_DeriveErrors :
    deriveFirstError { x20 0 (-2) with scap := ⟨false, false, false, false⟩ } (-2) = some .preNull ∧
    deriveFirstError { x20 0 (-1) with slen := 0 } (-1) = some .preEmpty ∧
    deriveFirstError { x20 0 17 with cfg := platform 19 [] [] } 17 = some .preOffset ∧
    deriveFirstError { x20 0 0 with cfg := platform 19 [] [], scap := ⟨true, false, false, false⟩ } 0 = some .ioRange ∧
    deriveFirstError { x20 0 0 with scap := ⟨true, false, false, false⟩ } 0 = some .ioNoseek ∧
    deriveFirstError { x20 0 (-1) with scap := ⟨true, false, false, true⟩ } (-1) = some .ioNoread ∧
    deriveFirstError { x20 0 (-1) with cfg := platform 23 [] [], scap := ⟨true, true, false, true⟩ } (-1) = some .ioNowrite ∧
    deriveFirstError { x20 0 (-1) with cfg := platform 23 [] [] } (-1) = some .ioCapacity ∧
    deriveFirstError { x20 0 (-1) with cfg := platform 24 [] [] } (-1) = none := by decide +kernel

/-- DeriveInPlaceResult: the last offset, from either end. -/
theorem witness_DeriveInPlace : ∃ s u : State, s.scap.present = true ∧ s.scap.read = true ∧ s.scap.seek = true ∧
    s.slen.toNat ≤ s.cfg.streamCap ∧ 16 + 4 ≤ s.slen.toNat ∧ s.p[2].toInt = (16 : Nat) ∧
    u.p[2].toInt = ((16 : Nat) : Int) - u.slen.toNat ∧ (∀ a, a < s.slen.toNat → portFault s.cfg .read a = false) ∧
    s.slen.toNat ≤ 2 ^ 60 :=
  ⟨x20 0 16, x20 0 (-4), by decide, by decide, by decide, by decide, by decide, by decide, by decide, fun _ _ => rfl, by decide⟩
/-- DeriveAppendResult: exactly four bytes of room. -/
theorem witness_DeriveAppend : ∃ s : State, s.cfg.wf ∧ s.scap.present = true ∧ s.scap.read = true ∧ s.scap.write = true ∧
    s.scap.seek = true ∧ 1 ≤ s.slen.toNat ∧ s.slen.toNat + 4 ≤ s.cfg.streamCap ∧ s.p[2].toInt = -1 ∧
    (∀ a, s.slen.toNat ≤ a → a < s.slen.toNat + 4 → portFault s.cfg .write a = false) ∧
    ∀ a, a < s.slen.toNat + 4 → portFault s.cfg .read a = false :=
  ⟨{ x20 0 (-1) with cfg := platform 24 [] [] }, by decide, by decide, by decide, by decide, by decide, by decide, by decide,
    by decide, fun _ _ _ => rfl, fun _ _ => rfl⟩
/-- DerivePortFaultLeaves: a faulting write (V-O26), a faulting read in place (V-O28) and in append mode (V-O27). -/
theorem witness_DerivePortFault :
    deriveFirstError { x20 0 (-1) with cfg := platform 100 [] [(23, 24)] } (-1) = none ∧
    portFault (platform 100 [] [(23, 24)]) .write 23 = true ∧
    deriveFirstError { x20 0 0 with cfg := platform 100 [(5, 6)] [] } 0 = none ∧
    portFault (platform 100 [(5, 6)] []) .read 5 = true ∧
    deriveFirstError { x20 0 (-1) with cfg := platform 100 [(23, 24)] [] } (-1) = none ∧
    portFault (platform 100 [(23, 24)] []) .read 23 = true ∧ (platform 100 [(23, 24)] []).wf := by decide +kernel

/-- DeltaReproducesDerive, PatchedStreamHasDesiredChecksum, PatchIsLocalAndIdempotent and StreamGrowsByFourOrNot: a DERIVE
that succeeds in append mode and one in place. -/
theorem witness_DeriveSucceeds_append : ∃ t, DeriveSucceeds (x20 0 0xFFFFFFFFFFFFFFFF) 0 3 1 2 t := by
  obtain ⟨t, h, ht⟩ := exists_next (o := exec (.derive 0 3 1 2) (x20 0 0xFFFFFFFFFFFFFFFF))
    (P := fun t => t.status.err == 0) (by decide +kernel)
  exact ⟨t, by decide, by decide, h, by simpa using ht⟩
theorem witness_DeriveSucceeds_inplace : ∃ t, DeriveSucceeds (x20 0xDEADBEEF 0) 0 3 1 2 t := by
  obtain ⟨t, h, ht⟩ := exists_next (o := exec (.derive 0 3 1 2) (x20 0xDEADBEEF 0))
    (P := fun t => t.status.err == 0) (by decide +kernel)
  exact ⟨t, by decide, by decide, h, by simpa using ht⟩
/-- The desired checksum is already the stream's (S4, CRC 0x12345678). -/
theorem witness_NoOpPatch : crc32 (x20 0x12345678 5).streamContents = (x20 0x12345678 5).p[1].setWidth 32 := by decide +kernel
/-- DeltaReproducesDerive: registers that hold a DERIVE's current CRC, desired CRC and tail bits (S2: cur 0x12345678). -/
theorem witness_DeltaOperands : ∃ t, (exec (.derive 0 3 1 2) (x20 0xDEADBEEF 0) = .next t ∧
    ((withP #v[0x12345678, 0xDEADBEEF, 160, 0, 0, 0, 0, 0]).p[0].setWidth 32 == t.crcreg ^^^ 0xFFFFFFFF &&
      (withP #v[0x12345678, 0xDEADBEEF, 160, 0, 0, 0, 0, 0]).p[2].toNat == (t.slen.toNat - t.p[3].toNat) * 8) = true) :=
  exists_next (by decide +kernel)
theorem witness_HostPatch : ∃ s : State, s.cfg.wf ∧ Idle s ∧ 16 + 4 ≤ s.cfg.streamCap ∧ s.inputs = s.patchInputs 16 0xDAC70D2F :=
  ⟨{ x20 0 0 with cfg := platform 20 [] [], inputs := (x20 0 0).patchInputs 16 0xDAC70D2F }, by decide, ⟨rfl, rfl⟩, by decide, rfl⟩
theorem witness_Attach : ∃ s : State, s.cfg.wf ∧ Idle s ∧ ([1, 2, 3, 4] : List Byte).length ≤ s.cfg.streamCap ∧
    s.inputs = attachStream [1, 2, 3, 4] 0xF 0 :=
  ⟨{ State.reset with cfg := platform 4 [] [], inputs := attachStream [1, 2, 3, 4] 0xF 0 }, by decide, ⟨rfl, rfl⟩, by decide, rfl⟩

end Sys2Proof.Tests
end

section
/-! PROOFS. The division theorem of R11: the degree of a carry-less product, what the loop of R126 keeps, and that quotient
and remainder are the only pair. -/

namespace Sys2Proof.Machine

/-! The degree of a product. -/

theorem testBit_clmulTo_two_pow (n b k i : Nat) :
    (clmulTo (2 ^ n) b k).testBit i = (decide (n ≤ i ∧ i < n + k) && b.testBit (i - n)) := by
  induction k with
  | zero => simp [clmulTo]
  | succ k ih =>
    rw [clmulTo, Nat.testBit_xor, ih]
    by_cases hi : i = n + k
    · subst hi
      cases hb : b.testBit k <;> simp [hb, Nat.testBit_shiftLeft]
    · have hbit : (if b.testBit k then 2 ^ n <<< k else 0).testBit i = false := by
        split
        · simp [Nat.shiftLeft_eq, ← Nat.pow_add, Nat.testBit_two_pow]; omega
        · simp
      rw [hbit, Bool.xor_false]
      congr 1
      exact decide_eq_decide.2 (by omega)

/-- A product of a power of x is a shift, on this side too. -/
theorem two_pow_clmul (n b : Nat) : clmul (2 ^ n) b = b <<< n := by
  refine Nat.eq_of_testBit_eq fun i => ?_
  rw [clmul, testBit_clmulTo_two_pow, Nat.testBit_shiftLeft]
  rcases Nat.lt_or_ge i (n + bitLen b) with h | h
  · simp [h]
  · have : b.testBit (i - n) = false :=
      Nat.testBit_lt_two_pow ((lt_two_pow_bitLen b).trans_le (Nat.pow_le_pow_right (by decide) (by omega)))
    simp [this]

/-- The partial product over n bits has degree below deg(a) + n. -/
theorem clmulTo_lt {a k : Nat} (b n : Nat) (ha : a < 2 ^ (k + 1)) : clmulTo a b n < 2 ^ (k + n) := by
  induction n with
  | zero => exact Nat.two_pow_pos k
  | succ n ih =>
    have hshift : a <<< n < 2 ^ (k + (n + 1)) := by
      rw [Nat.shiftLeft_eq, show k + (n + 1) = (k + 1) + n by omega, Nat.pow_add]
      exact Nat.mul_lt_mul_of_pos_right ha (Nat.two_pow_pos n)
    refine Nat.xor_lt_two_pow (ih.trans_le (Nat.pow_le_pow_right (by decide) (by omega))) ?_
    split
    · exact hshift
    · exact Nat.two_pow_pos _

/-- R10: the leading term of a product is the product of the leading terms. -/
theorem testBit_clmul_log2_add_log2 {a b : Nat} (ha : a ≠ 0) (hb : b ≠ 0) :
    (clmul a b).testBit (a.log2 + b.log2) = true := by
  have hlow : (clmulTo a b b.log2).testBit (a.log2 + b.log2) = false :=
    Nat.testBit_lt_two_pow (clmulTo_lt b b.log2 Nat.lt_log2_self)
  rw [clmul, bitLen, if_neg hb, clmulTo, Nat.testBit_xor, hlow, if_pos (Nat.testBit_log2 hb), Nat.testBit_shiftLeft]
  simp [Nat.testBit_log2 ha]

/-- A product of degree below a factor's has the other factor 0. -/
theorem eq_zero_of_clmul_lt {a b : Nat} (hb : b ≠ 0) (h : clmul a b < 2 ^ b.log2) : a = 0 := by
  by_contra ha
  have := Nat.ge_two_pow_of_testBit (testBit_clmul_log2_add_log2 ha hb)
  have := Nat.pow_le_pow_right (n := 2) (by decide) (Nat.le_add_left b.log2 a.log2)
  omega

/-! The loop of R126. -/

theorem lt_two_pow_of_testBit_false {r k : Nat} (hr : r < 2 ^ (k + 1)) (hk : r.testBit k = false) : r < 2 ^ k := by
  refine Nat.lt_pow_two_of_testBit r fun i hi => ?_
  rcases Nat.eq_or_lt_of_le hi with rfl | hi
  · exact hk
  · exact Nat.testBit_lt_two_pow (hr.trans_le (Nat.pow_le_pow_right (by decide) hi))

/-- Setting a bit that is 0 adds a power of x. -/
theorem or_one_shiftLeft_of_testBit_false {q n : Nat} (h : q.testBit n = false) : q ||| 1 <<< n = q ^^^ 2 ^ n := by
  refine Nat.eq_of_testBit_eq fun i => ?_
  rw [Nat.one_shiftLeft, Nat.testBit_or, Nat.testBit_xor, Nat.testBit_two_pow]
  by_cases hi : n = i
  · subst hi; simp [h]
  · simp [hi]

/-- R126: a step that subtracts the divisor clears the bit it looked at. -/
theorem xor_shiftLeft_log2_lt {r y n : Nat} (hy : y ≠ 0) (hr : r < 2 ^ (n + y.log2 + 1))
    (hbit : r.testBit (n + y.log2) = true) : r ^^^ y <<< n < 2 ^ (n + y.log2) := by
  have hshift : y <<< n < 2 ^ (n + y.log2 + 1) := by
    rw [Nat.shiftLeft_eq, show n + y.log2 + 1 = (y.log2 + 1) + n by omega, Nat.pow_add]
    exact Nat.mul_lt_mul_of_pos_right Nat.lt_log2_self (Nat.two_pow_pos n)
  refine lt_two_pow_of_testBit_false (Nat.xor_lt_two_pow hr hshift) ?_
  simp [Nat.testBit_xor, hbit, Nat.testBit_shiftLeft, Nat.testBit_log2 hy]

/-- R126: every step keeps q·y ⊕ r, and the last leaves a remainder of degree below the divisor's. -/
theorem divLoop_spec {y : Nat} (hy : y ≠ 0) (n q r : Nat) (hq : ∀ i < n, q.testBit i = false)
    (hr : r < 2 ^ (n + y.log2)) :
    clmul (divLoop y y.log2 n q r).1 y ^^^ (divLoop y y.log2 n q r).2 = clmul q y ^^^ r ∧
      (divLoop y y.log2 n q r).2 < 2 ^ y.log2 := by
  induction n generalizing q r with
  | zero => exact ⟨rfl, by simpa [divLoop] using hr⟩
  | succ n ih =>
    have hr' : r < 2 ^ (n + y.log2 + 1) := by rwa [show n + 1 + y.log2 = n + y.log2 + 1 by omega] at hr
    unfold divLoop
    cases hbit : r.testBit (n + y.log2) with
    | false =>
      exact ih q r (fun i hi => hq i (by omega)) (lt_two_pow_of_testBit_false hr' hbit)
    | true =>
      have hset : q ||| 1 <<< n = q ^^^ 2 ^ n := or_one_shiftLeft_of_testBit_false (hq n (by omega))
      have hlow : ∀ i < n, (q ^^^ 2 ^ n).testBit i = false := fun i hi => by
        simp [Nat.testBit_xor, hq i (by omega), Nat.testBit_two_pow]; omega
      have hsame : clmul (q ^^^ 2 ^ n) y ^^^ (r ^^^ y <<< n) = clmul q y ^^^ r := by
        rw [clmul_xor_left, two_pow_clmul]
        calc _ = (clmul q y ^^^ r) ^^^ (y <<< n ^^^ y <<< n) := by ac_rfl
          _ = _ := by simp
      rw [if_pos rfl, hset, ← hsame]
      exact ih _ _ hlow (xor_shiftLeft_log2_lt hy hr' hbit)

theorem divrem_spec (a : Nat) {m : Nat} (hm : m ≠ 0) :
    a = clmul (pdiv a m) m ^^^ pmod a m ∧ pmod a m < 2 ^ m.log2 := by
  have ha : a < 2 ^ (bitLen a - m.log2 + m.log2) :=
    (lt_two_pow_bitLen a).trans_le (Nat.pow_le_pow_right (by decide) (by omega))
  obtain ⟨hsum, hlt⟩ := divLoop_spec hm (bitLen a - m.log2) 0 a (by simp) ha
  exact ⟨by rw [pdiv, pmod, divrem, hsum]; simp, hlt⟩

/-! R11. -/

theorem clmul_pdiv_xor_pmod (a : Nat) {m : Nat} (hm : m ≠ 0) : clmul (pdiv a m) m ^^^ pmod a m = a :=
  (divrem_spec a hm).1.symm

theorem pmod_lt (a : Nat) {m : Nat} (hm : m ≠ 0) : pmod a m < 2 ^ m.log2 := (divrem_spec a hm).2

theorem deg_lt_deg_iff {r m : Nat} (hm : m ≠ 0) : deg r < deg m ↔ r < 2 ^ m.log2 := by
  rw [← deg_lt_iff, deg, deg, if_neg hm]

/-- Two pairs that sum to one polynomial are one pair. -/
theorem quotient_remainder_unique {m q q' r r' : Nat} (hm : m ≠ 0) (hr : r < 2 ^ m.log2) (hr' : r' < 2 ^ m.log2)
    (h : clmul q m ^^^ r = clmul q' m ^^^ r') : q = q' ∧ r = r' := by
  have hsum : clmul (q ^^^ q') m ^^^ (r ^^^ r') = 0 := calc
    _ = (clmul q m ^^^ r) ^^^ (clmul q' m ^^^ r') := by rw [clmul_xor_left]; ac_rfl
    _ = 0 := Nat.xor_eq_zero_iff.2 h
  have hprod : clmul (q ^^^ q') m = r ^^^ r' := Nat.xor_eq_zero_iff.1 hsum
  have hq : q ^^^ q' = 0 := eq_zero_of_clmul_lt hm (hprod ▸ Nat.xor_lt_two_pow hr hr')
  rw [hq, clmul_zero_left] at hprod
  exact ⟨Nat.xor_eq_zero_iff.1 hq, Nat.xor_eq_zero_iff.1 hprod.symm⟩

theorem eq_pdiv_and_eq_pmod_iff {a m q r : Nat} (hm : m ≠ 0) :
    (a = clmul q m ^^^ r ∧ deg r < deg m) ↔ (q = pdiv a m ∧ r = pmod a m) := by
  rw [deg_lt_deg_iff hm]
  constructor
  · rintro ⟨ha, hr⟩
    exact quotient_remainder_unique hm hr (pmod_lt a hm) (ha.symm.trans (clmul_pdiv_xor_pmod a hm).symm)
  · rintro ⟨rfl, rfl⟩
    exact ⟨(clmul_pdiv_xor_pmod a hm).symm, pmod_lt a hm⟩

theorem generator_ne_zero : generator ≠ 0 := by decide

theorem log2_generator : generator.log2 = 32 := by decide

theorem pmod_generator_reduced (a : Nat) : Reduced (pmod a generator) := by
  simpa [log2_generator] using pmod_lt a generator_ne_zero

theorem mulmod_reduced (a b : Nat) : Reduced (mulmod a b) := pmod_generator_reduced _

end Sys2Proof.Machine

namespace Sys2Proof.Proofs

open Sys2Proof.Machine

/-- Settles O34: the loop of R126 keeps q·m ⊕ r and ends with deg(r) < deg(m); a difference of two such pairs would be a
product of degree below its factor's. -/
theorem divisionIsUnique : Obligations.DivisionIsUnique := by
  unfold Obligations.DivisionIsUnique
  exact ⟨fun _ _ _ _ hm => eq_pdiv_and_eq_pmod_iff hm, fun a b => ⟨rfl, mulmod_reduced a b⟩⟩

end Sys2Proof.Proofs
end

section
/-! PROOFS. The step that completes the command in flight (R35, R62, R86), and the state after reset (R211). -/

namespace Sys2Proof.Machine

open Sys2Proof.Spec

/-! The command in flight. -/

/-- R62: an access that waits for BUSY is one that stepBusy answers with the completion of the command. -/
theorem stepBusy_of_waits {w : Word} {s : State} (h : ∀ a ∈ s.inputs.head?, waitsForBusy a = true) :
    stepBusy w s = completeCommand w s := by
  unfold stepBusy
  cases hi : s.inputs with
  | nil => rfl
  | cons a rest =>
    have ha : waitsForBusy a = true := h a (by simp [hi])
    cases a with
    | windowRead off =>
      have hoff : windowReg off ≠ some .status := by
        rw [Ne, windowReg_status]; simpa [waitsForBusy] using ha
      simp [hoff]
    | windowWrite off v => rfl
    | streamRead addr => rfl
    | streamWrite addr b => rfl
    | patch ro w => rfl
    | assertReset => cases ha
    | releaseReset => cases ha
    | elapse => cases ha

/-- R35: the step that Completes speaks of. -/
theorem step_of_completes {s : State} {w : Word} {rest : List Input} (h : Completes s w rest) :
    step s = completeCommand w (s.setInputs rest) := by
  obtain ⟨hheld, hw, hin⟩ := h
  rw [step_busy hheld hw]
  rcases hin with hin | ⟨rfl, hwait⟩
  · simp [stepBusy, hin]
  · exact stepBusy_of_waits hwait

theorem completeCommand_of_decode {w : Word} {s : State} {i : Instr} (he : s.status.err = 0) (hd : decode w = .ok i) :
    completeCommand w s = exec i (s.setInFlight none) := by
  simp [completeCommand, he, hd]

theorem withFetchWord_completes (s : State) (w : Nat) :
    Completes (s.withFetchWord 32 w) (BitVec.ofNat 32 w) s.inputs :=
  ⟨rfl, congrArg some (BitVec.eq_of_toNat_eq (by simp)), .inl rfl⟩

end Sys2Proof.Machine

namespace Sys2Proof.Proofs

open Sys2Proof.Machine Sys2Proof.Spec

/-- Settles O7: both clauses are steps that complete the word, and its completion is exec. -/
theorem stepRunsTheCommandInFlight : Obligations.StepRunsTheCommandInFlight := by
  unfold Obligations.StepRunsTheCommandInFlight
  constructor
  · intro s w rest i hc he hd
    exact (step_of_completes hc).trans (completeCommand_of_decode he hd)
  · intro s w i he hd
    exact (step_of_completes (withFetchWord_completes s w)).trans (completeCommand_of_decode he hd)

/-- Settles O20: every field is a value of R211, and the platform is the model's own choice (log entry 4). -/
theorem resetMeetsInvariant : Obligations.ResetMeetsInvariant where
  cfgWf := by decide
  streamWf := .nil
  streamInside := by simp [State.reset]
  statusLegal := by decide
  heldReset := by simp [State.reset]
  noCommand := fun _ => ⟨rfl, rfl⟩
  derivations := by simp [State.reset]

end Sys2Proof.Proofs
end

section
/-! PROOFS. What a step can do, said once for every proof about all steps: which transitions the step function has, and what
a command that runs changes. -/

namespace Sys2Proof.Machine

/-- What a step does to a state whose first input is already used up (or, where it waits, is still to come). -/
inductive Transition (s : State) : State → Prop
  /-- Time passes, or the machine waits. -/
  | nothing : Transition s s
  /-- R35: the command in flight completes. -/
  | completes {w : Word} {t : State} (hheld : s.resetHeld = false) (hw : s.inFlight = some w)
      (ht : completeCommand w s = .next t) : Transition s t
  /-- R210: reset is asserted. -/
  | assertsReset : Transition s s.assertReset
  /-- R210: reset is released. -/
  | releasesReset : Transition s (s.setResetHeld false)
  /-- H1, H2: the host reads the window. -/
  | windowRead (off : BitVec 8) : Transition s (s.hostRead off)
  /-- H3, H4, H5: the host writes the window. -/
  | windowWrite (off : BitVec 8) (v : DWord) (hheld : s.resetHeld = false) : Transition s (s.hostWrite off v)
  /-- H6: the host reads a byte of the stream space. -/
  | streamRead (a : DWord) : Transition s (s.reply (.stream a (s.streamByte a.toNat)))
  /-- H6: the host writes a byte of the stream space. -/
  | streamWrite {a : Nat} (ha : a < s.cfg.streamCap) (b : Byte) : Transition s (s.storeStream a b)
  /-- R160: the host patches the stream with a magic delta that is good. -/
  | patch {ro : DWord} {w : Word} (hgood : ⟨ro, w⟩ ∈ s.derivations) :
      Transition s { s.hostPatch ro.toNat w with derivations := [] }

theorem hostStreamRead_transition {s t : State} {a : DWord} (h : s.hostStreamRead a = .next t) : Transition s t := by
  unfold State.hostStreamRead at h
  split at h
  · cases h; exact .streamRead a
  · cases h

theorem hostStreamWrite_transition {s t : State} {a : DWord} {b : Byte} (h : s.hostStreamWrite a b = .next t) :
    Transition s t := by
  unfold State.hostStreamWrite at h
  split at h
  · cases h; exact .streamWrite ‹_› b
  · cases h

theorem patchStream_transition {s t : State} {ro : DWord} {w : Word} (h : s.patchStream ro w = .next t) :
    Transition s t := by
  rcases s.patchStream_cases ro w with ⟨hgood, heq⟩ | ⟨-, heq⟩ <;> rw [heq] at h <;> cases h
  exact .patch hgood

theorem stepInReset_transition {s t : State} (h : stepInReset s = .next t) : ∃ l, Transition (s.setInputs l) t := by
  unfold stepInReset at h
  split at h
  next => cases h; exact ⟨s.inputs, .nothing⟩
  next rest _ => cases h; exact ⟨rest, .nothing⟩
  next rest _ => cases h; exact ⟨rest, .releasesReset⟩
  next rest _ => cases h; exact ⟨rest, .nothing⟩
  next rest _ => exact ⟨rest, hostStreamRead_transition h⟩
  next rest _ => exact ⟨rest, hostStreamWrite_transition h⟩
  next rest _ => exact ⟨rest, patchStream_transition h⟩
  next =>
    split at h <;> cases h
    · exact ⟨s.inputs, .nothing⟩
    · exact ⟨_, .releasesReset⟩
  next =>
    split at h <;> cases h
    · exact ⟨s.inputs, .nothing⟩
    · exact ⟨_, .releasesReset⟩

theorem stepBusy_transition {s t : State} {w : Word} (hheld : s.resetHeld = false) (hw : s.inFlight = some w)
    (h : stepBusy w s = .next t) : ∃ l, Transition (s.setInputs l) t := by
  have hcomplete (h : completeCommand w s = .next t) : ∃ l, Transition (s.setInputs l) t :=
    ⟨s.inputs, .completes hheld hw h⟩
  unfold stepBusy at h
  split at h
  next => exact hcomplete h
  next rest _ => exact ⟨rest, .completes hheld hw h⟩
  next rest _ => cases h; exact ⟨rest, .assertsReset⟩
  next rest _ => cases h; exact ⟨rest, .nothing⟩
  next off rest _ =>
    split at h
    · cases h; exact ⟨rest, .windowRead off⟩
    · exact hcomplete h
  next => exact hcomplete h
  next => exact hcomplete h
  next => exact hcomplete h
  next => exact hcomplete h

theorem stepIdle_transition {s t : State} (hheld : s.resetHeld = false) (h : stepIdle s = .next t) :
    ∃ l, Transition (s.setInputs l) t := by
  unfold stepIdle at h
  split at h
  next => cases h; exact ⟨s.inputs, .nothing⟩
  next rest _ => cases h; exact ⟨rest, .nothing⟩
  next rest _ => cases h; exact ⟨rest, .assertsReset⟩
  next rest _ => cases h; exact ⟨rest, .nothing⟩
  next off rest _ => cases h; exact ⟨rest, .windowRead off⟩
  next off v rest _ => cases h; exact ⟨rest, .windowWrite off v hheld⟩
  next rest _ => exact ⟨rest, hostStreamRead_transition h⟩
  next rest _ => exact ⟨rest, hostStreamWrite_transition h⟩
  next rest _ => exact ⟨rest, patchStream_transition h⟩

/-- Every step that answers a next state is one of the transitions, on the state with some inputs used up. -/
theorem step_transition {s t : State} (h : step s = .next t) : ∃ l, Transition (s.setInputs l) t := by
  cases hheld : s.resetHeld with
  | true => rw [step_held hheld] at h; exact stepInReset_transition h
  | false =>
    cases hw : s.inFlight with
    | none => rw [step_idle hheld hw] at h; exact stepIdle_transition hheld h
    | some w => rw [step_busy hheld hw] at h; exact stepBusy_transition hheld hw h

/-! What a command changes. -/

@[simp] theorem State.noteReads_nil (s : State) : s.noteReads [] = s := by simp [State.noteReads]

/-- What a command other than DERIVE does once its operands are read: it writes operand registers, CRCREG and CURSOR, or it
fails. -/
inductive Computes (op : BitVec 8) (s : State) : State → Prop
  | writes (p : Vector DWord 8) (crcreg : Word) (cursor : DWord) (written : Vector Bool 8) :
      Computes op s { s with p := p, crcreg := crcreg, cursor := cursor, written := written }
  | fails (c : Cause) : Computes op s (s.raise op c)

theorem State.noteReads_of_no_sources (s : State) {i : Instr} (h : i.sources = []) : s.noteReads i.sources = s := by
  simp [h]

/-- A command that runs computes on the state with its operands read (R16), or is a DERIVE. -/
theorem exec_cases {i : Instr} {s t : State} (h : exec i s = .next t) :
    Computes i.opcode (s.noteReads i.sources) t ∨
      ∃ rd rx rs1 rs2, i = .derive rd rx rs1 rs2 ∧ execDerive rd rx rs1 rs2 s = .next t := by
  cases i with
  | nop => cases h; rw [s.noteReads_of_no_sources rfl]; exact .inl (.writes ..)
  | crcinit => cases h; rw [s.noteReads_of_no_sources rfl]; exact .inl (.writes ..)
  | crcfold rs1 => cases h; exact .inl (.writes ..)
  | crcfin rd => cases h; rw [s.noteReads_of_no_sources rfl]; exact .inl (.writes ..)
  | crcstrm rd =>
    rw [s.noteReads_of_no_sources rfl]
    rcases execCrcstrm_cases rd s with ⟨c, -, heq⟩ | ⟨r, -, -, heq⟩ <;> cases heq.symm.trans h
    · exact .inl (.fails c)
    · exact .inl (.writes ..)
  | padd rd rs1 rs2 => cases h; exact .inl (.writes ..)
  | mulmod rd rs1 rs2 => cases h; exact .inl (.writes ..)
  | powmod rd rs1 rs2 => cases h; exact .inl (.writes ..)
  | divrem rd rx rs1 rs2 =>
    rcases execDivrem_cases rd rx rs1 rs2 s with ⟨-, heq⟩ | ⟨-, heq⟩ <;> cases heq.symm.trans h
    · exact .inl (.fails _)
    · exact .inl (.writes ..)
  | recip rd rs1 =>
    rcases execRecip_cases rd rs1 s with ⟨-, heq⟩ | ⟨v, -, heq⟩ <;> cases heq.symm.trans h
    · exact .inl (.fails _)
    · exact .inl (.writes ..)
  | degree rd rs1 => cases h; exact .inl (.writes ..)
  | rev32 rd rs1 => cases h; exact .inl (.writes ..)
  | delta rd rs1 rs2 rx =>
    rcases execDelta_cases rd rs1 rs2 rx s with ⟨-, heq⟩ | ⟨m, -, heq⟩ <;> cases heq.symm.trans h
    · exact .inl (.fails _)
    · exact .inl (.writes ..)
  | derive rd rx rs1 rs2 => exact .inr ⟨rd, rx, rs1, rs2, rfl, h⟩

/-! Reset. -/

/-- R212, R213: reset leaves the stream alone, or writes bytes from SLEN up that the stream space has. -/
theorem State.assertReset_stream (s : State) : ∃ bs : List Byte, bs.length ≤ s.cfg.streamCap - s.slen.toNat ∧
    s.assertReset.stream = s.stream.writeBytes s.slen.toNat bs := by
  by_cases h : s.appendInFlight = true
  · exact ⟨(anyFourBytes s.draws).take (s.cfg.streamCap - s.slen.toNat), List.length_take_le _ _,
      by simp [State.assertReset, State.cutAppend, h]⟩
  · exact ⟨[], Nat.zero_le _, by simp [State.assertReset, h, Memory.writeBytes]⟩

theorem State.draws_le_assertReset (s : State) : s.draws ≤ s.assertReset.draws := by
  by_cases h : s.appendInFlight = true <;> simp [State.assertReset, State.cutAppend, h]

end Sys2Proof.Machine
end

section
/-! PROOFS. What no step takes back (R7, R173, entry U1): the platform, the mark of an unwritten read, the bytes drawn and the
replies given. -/

namespace Sys2Proof.Machine

/-- The platform stays, the mark of an unwritten read stays once set, draws are counted up, and replies stay given. -/
structure KeepsHistory (s t : State) : Prop where
  cfg     : t.cfg = s.cfg
  mark    : s.uninitRead = true → t.uninitRead = true
  draws   : s.draws ≤ t.draws
  replies : s.replies <:+ t.replies

namespace KeepsHistory

/-- A change of other fields. -/
theorem of_eq {s t : State} (hcfg : t.cfg = s.cfg) (hmark : t.uninitRead = s.uninitRead) (hdraws : t.draws = s.draws)
    (hreplies : t.replies = s.replies) : KeepsHistory s t :=
  ⟨hcfg, fun h => hmark.trans h, hdraws.ge, hreplies ▸ List.suffix_refl _⟩

theorem trans {s t u : State} (h : KeepsHistory s t) (h' : KeepsHistory t u) : KeepsHistory s u :=
  ⟨h'.cfg.trans h.cfg, h'.mark ∘ h.mark, h.draws.trans h'.draws, h.replies.trans h'.replies⟩

theorem of_noteReads (s : State) (rs : List Reg) : KeepsHistory s (s.noteReads rs) :=
  ⟨rfl, fun h => by simp [h], Nat.le_refl _, List.suffix_refl _⟩

theorem of_deriveIssued (s : State) (rs1 rs2 : Reg) : KeepsHistory s (s.deriveIssued rs1 rs2) := by
  exact (of_noteReads s [rs1, rs2]).trans (of_eq (by simp) (by simp [State.deriveIssued]) (by simp) (by simp))

theorem of_appended (s : State) : KeepsHistory s s.appended := of_eq rfl rfl rfl rfl

theorem of_raise (s : State) (op : BitVec 8) (c : Cause) : KeepsHistory s (s.raise op c) := of_eq rfl rfl rfl rfl

theorem of_burst (s : State) (m : Memory) {n : Nat} (h : s.draws ≤ n) : KeepsHistory s ((s.setStream m).setDraws n) :=
  ⟨rfl, id, h, List.suffix_refl _⟩

end KeepsHistory

theorem Computes.keepsHistory {op : BitVec 8} {s t : State} (h : Computes op s t) : KeepsHistory s t := by
  cases h with
  | writes => exact .of_eq rfl rfl rfl rfl
  | fails c => exact .of_raise s op c

theorem deriveFrom_keepsHistory (op : BitVec 8) (rd rx : Reg) (des : Word) (ro : Nat) (s : State) :
    KeepsHistory s (deriveFrom op rd rx des ro s) := by
  rcases deriveFrom_cases op rd rx des ro s with ⟨-, heq⟩ | ⟨r, -, ⟨-, heq⟩ | ⟨m, -, heq⟩⟩ <;>
    rw [heq] <;> exact .of_eq rfl rfl rfl rfl

theorem execDerive_keepsHistory {rd rx rs1 rs2 : Reg} {s t : State} (h : execDerive rd rx rs1 rs2 s = .next t) :
    KeepsHistory s t := by
  have hissued := KeepsHistory.of_deriveIssued s rs1 rs2
  rcases execDerive_cases rd rx rs1 rs2 s with
    ⟨c, -, heq⟩ | ⟨ro, -, heq⟩ | ⟨-, -, heq⟩ | ⟨-, -, heq⟩ <;> cases heq.symm.trans h
  · exact hissued.trans (.of_raise ..)
  · exact hissued.trans (deriveFrom_keepsHistory ..)
  · exact hissued.trans ((KeepsHistory.of_burst _ _ (by simp)).trans (.of_raise ..))
  · exact hissued.trans ((KeepsHistory.of_appended _).trans (deriveFrom_keepsHistory ..))

theorem exec_keepsHistory {i : Instr} {s t : State} (h : exec i s = .next t) : KeepsHistory s t := by
  rcases exec_cases h with h | ⟨rd, rx, rs1, rs2, -, h⟩
  · exact (KeepsHistory.of_noteReads s _).trans h.keepsHistory
  · exact execDerive_keepsHistory h

theorem completeCommand_keepsHistory {w : Word} {s t : State} (h : completeCommand w s = .next t) : KeepsHistory s t := by
  rcases completeCommand_cases w s with ⟨-, heq⟩ | ⟨-, -, heq⟩ | ⟨-, -, heq⟩ | ⟨i, -, -, heq⟩ <;> rw [heq] at h
  · cases h; exact .of_eq rfl rfl rfl rfl
  · cases h; exact .of_eq rfl rfl rfl rfl
  · cases h; exact .of_eq rfl rfl rfl rfl
  · exact (KeepsHistory.of_eq (s := s) (t := s.setInFlight none) rfl rfl rfl rfl).trans (exec_keepsHistory h)

theorem hostRead_keepsHistory (s : State) (off : BitVec 8) : KeepsHistory s (s.hostRead off) := by
  obtain ⟨m, hm, heq⟩ := s.hostRead_eq off
  rw [heq]
  exact ⟨rfl, hm, Nat.le_refl _, List.suffix_cons _ _⟩

theorem hostWrite_keepsHistory (s : State) (off : BitVec 8) (v : DWord) : KeepsHistory s (s.hostWrite off v) := by
  rcases s.hostWrite_cases off v with h | h | h | h | h | h | h | ⟨n, h⟩ <;>
    simp only [h, State.writeSlen_eq] <;> exact .of_eq rfl rfl rfl rfl

theorem assertReset_keepsHistory (s : State) : KeepsHistory s s.assertReset :=
  ⟨rfl, (KeepsHistory.of_noteReads s s.readsInFlight).mark, s.draws_le_assertReset, List.suffix_refl _⟩

theorem Transition.keepsHistory {s t : State} (h : Transition s t) : KeepsHistory s t := by
  cases h with
  | nothing => exact .of_eq rfl rfl rfl rfl
  | completes _ _ ht => exact completeCommand_keepsHistory ht
  | assertsReset => exact assertReset_keepsHistory s
  | releasesReset => exact .of_eq rfl rfl rfl rfl
  | windowRead off => exact hostRead_keepsHistory s off
  | windowWrite off v _ => exact hostWrite_keepsHistory s off v
  | streamRead a => exact ⟨rfl, id, Nat.le_refl _, List.suffix_cons _ _⟩
  | streamWrite _ b => rw [State.storeStream_eq]; exact .of_eq rfl rfl rfl rfl
  | patch _ => exact .of_eq rfl rfl rfl rfl

end Sys2Proof.Machine

namespace Sys2Proof.Proofs

open Sys2Proof.Machine

/-- Settles O24: each transition keeps the history, and every step is a transition on a state that differs in its inputs
only. -/
theorem stepsKeepPlatformAndHistory : Obligations.StepsKeepPlatformAndHistory := by
  unfold Obligations.StepsKeepPlatformAndHistory
  intro s t h
  obtain ⟨l, ht⟩ := step_transition h
  obtain ⟨hcfg, hmark, hdraws, hreplies⟩ := ht.keepsHistory
  exact ⟨hcfg, hmark, hdraws, hreplies⟩

end Sys2Proof.Proofs
end

section
/-! PROOFS. The invariant of Safety.lean: what each operation needs to keep it, then commands, then every step. -/

namespace Sys2Proof.Machine

/-! The parts of the invariant. -/

theorem Status.legal_clear : Status.clear.legal = true := by decide

theorem Status.legal_record (st : Status) (op : BitVec 8) (c : Cause) : (st.record op c).legal = true := by
  have hc : c ∈ allCauses := by cases c <;> decide
  simp only [Status.legal, Bool.or_eq_true, List.any_eq_true]
  exact .inr ⟨c, hc, by simp⟩

/-- R184: a skip happens only where an error is recorded, and keeps its codes. -/
theorem Status.legal_skipped {st : Status} (h : st.legal = true) (herr : st.err ≠ 0) : st.skipped.legal = true := by
  have hne : st ≠ Status.clear := fun heq => herr (heq ▸ rfl)
  simp only [Status.legal, Bool.or_eq_true, beq_iff_eq, hne, false_or] at h ⊢
  exact .inr h

namespace State.Inv

variable {s : State}

/-! Operations on a state that meets the invariant. -/

theorem setInputs (hs : s.Inv) (l : List Input) : (s.setInputs l).Inv :=
  { hs with heldReset := fun h => { hs.heldReset h with } }

theorem noteReads (hs : s.Inv) (rs : List Reg) : (s.noteReads rs).Inv :=
  { hs with heldReset := fun h => { hs.heldReset h with } }

theorem setDraws (hs : s.Inv) (n : Nat) : (s.setDraws n).Inv :=
  { hs with heldReset := fun h => { hs.heldReset h with } }

theorem reply (hs : s.Inv) (r : Reply) : (s.reply r).Inv :=
  { hs with heldReset := fun h => { hs.heldReset h with } }

theorem hostRead (hs : s.Inv) (off : BitVec 8) : (s.hostRead off).Inv := by
  obtain ⟨m, -, heq⟩ := s.hostRead_eq off
  rw [heq]
  exact { hs with heldReset := fun h => { hs.heldReset h with } }

theorem releaseReset (hs : s.Inv) : (s.setResetHeld false).Inv :=
  { hs with heldReset := fun h => by cases h }

theorem forgetDerivations (hs : s.Inv) : s.forgetDerivations.Inv :=
  { hs with
    heldReset := fun h => { hs.heldReset h with }
    derivations := fun _ hd => by cases hd }

/-- R160: what a DERIVE's success adds. -/
theorem noteDerivation (hs : s.Inv) {d : Derivation} (hd : d.ro.toNat + 4 ≤ s.slen.toNat)
    (hcap : s.slen.toNat ≤ s.cfg.streamCap) : (s.noteDerivation d).Inv :=
  { hs with
    heldReset := fun h => { hs.heldReset h with }
    derivations := fun e he => by
      rcases List.mem_cons.1 he with rfl | he
      · exact ⟨hd, hcap⟩
      · exact hs.derivations e he }

/-- R50: writes below STREAM_CAP. -/
theorem writeBytes (hs : s.Inv) {a : Nat} {bs : List Byte} (h : bs.length ≤ s.cfg.streamCap - a) :
    (s.setStream (s.stream.writeBytes a bs)).Inv :=
  { hs with
    streamWf := Memory.writeBytes_wf bs hs.streamWf a
    streamInside := fun c hc => by
      rcases Memory.mem_writeBytes hc with ⟨hlo, hhi⟩ | hc
      · simp only [State.setStream_cfg]; omega
      · exact hs.streamInside c hc
    heldReset := fun h => { hs.heldReset h with } }

theorem storeStream (hs : s.Inv) {a : Nat} (ha : a < s.cfg.streamCap) (b : Byte) : (s.storeStream a b).Inv := by
  have hwrite : (s.setStream (s.stream.writeBytes a [b])).Inv := hs.writeBytes (by simp; omega)
  unfold State.storeStream
  split
  · exact hwrite.forgetDerivations
  · exact hwrite

/-- R160: a magic delta that is good has room for its patch. -/
theorem hostPatch (hs : s.Inv) {ro : DWord} {w : Word} (hgood : ⟨ro, w⟩ ∈ s.derivations) :
    (s.hostPatch ro.toNat w).Inv := by
  obtain ⟨hro, hcap⟩ := hs.derivations _ hgood
  exact hs.writeBytes (by simp [State.patchedBytes] at hro ⊢; omega)

/-! Operations on a core that reset does not hold. -/

/-- The registers that the invariant speaks of only under reset. -/
theorem setRegisters (hs : s.Inv) (hheld : s.resetHeld = false) (p : Vector DWord 8) (crcreg : Word) (cursor : DWord)
    (scap : Scap) (written : Vector Bool 8) :
    ({ s with p := p, crcreg := crcreg, cursor := cursor, scap := scap, written := written } : State).Inv :=
  { hs with heldReset := fun h => by simp [hheld] at h }

/-- SLEN changes only where no magic delta is good (R164). -/
theorem setSlen (hs : s.Inv) (hheld : s.resetHeld = false) (hnone : s.derivations = []) (v : DWord) : (s.setSlen v).Inv :=
  { hs with
    heldReset := fun h => by simp [hheld] at h
    derivations := fun d hd => by simp [hnone] at hd }

theorem writeSlen (hs : s.Inv) (hheld : s.resetHeld = false) (v : DWord) : (s.writeSlen v).Inv := by
  unfold State.writeSlen
  split
  · subst v; exact hs
  · exact hs.forgetDerivations.setSlen hheld rfl v

theorem clearError (hs : s.Inv) (hheld : s.resetHeld = false) : s.clearError.Inv :=
  { hs with
    statusLegal := Status.legal_clear
    heldReset := fun h => by simp [hheld] at h
    noCommand := fun h => ⟨rfl, (hs.noCommand h).2⟩ }

/-- R32: a word is put in flight. -/
theorem issueWord (hs : s.Inv) (hheld : s.resetHeld = false) (w : Word) :
    ((s.setInFlight (some w)).setCommanded true).Inv :=
  { hs with
    heldReset := fun h => by simp [hheld] at h
    noCommand := fun h => by cases h }

theorem hostWrite (hs : s.Inv) (hheld : s.resetHeld = false) (off : BitVec 8) (v : DWord) : (s.hostWrite off v).Inv := by
  rcases s.hostWrite_cases off v with h | h | h | h | h | h | h | ⟨n, h⟩ <;> rw [h]
  · exact hs
  · exact hs.issueWord hheld _
  · exact hs.clearError hheld
  · exact hs.setRegisters hheld ..
  · exact hs.setRegisters hheld ..
  · exact hs.writeSlen hheld v
  · exact hs.setRegisters hheld ..
  · exact hs.setRegisters hheld ..

/-- R210 to R213. -/
theorem assertReset (hs : s.Inv) : s.assertReset.Inv := by
  obtain ⟨bs, hlen, hstream⟩ := s.assertReset_stream
  have hwrite := hs.writeBytes hlen
  exact
    { cfgWf := hs.cfgWf
      streamWf := hstream ▸ hwrite.streamWf
      streamInside := hstream ▸ hwrite.streamInside
      statusLegal := Status.legal_clear
      heldReset := fun _ => ⟨rfl, rfl, rfl, rfl, rfl, rfl⟩
      noCommand := fun _ => ⟨rfl, rfl⟩
      derivations := fun _ hd => by cases hd }

end State.Inv

/-! Commands. -/

/-- The invariant on a core that has been given a command and is not held in reset, which is where commands run. -/
structure State.RunInv (s : State) : Prop where
  inv       : s.Inv
  released  : s.resetHeld = false
  commanded : s.commanded = true

namespace State.RunInv

variable {s t : State}

theorem of_inFlight (hs : s.Inv) (hheld : s.resetHeld = false) {w : Word} (hw : s.inFlight = some w) : s.RunInv where
  inv := hs
  released := hheld
  commanded := by
    by_contra hc
    have := (hs.noCommand (by simpa using hc)).2
    simp [hw] at this

theorem setInFlight_none (hs : s.RunInv) : (s.setInFlight none).RunInv where
  inv := { hs.inv with
    heldReset := fun h => by simp [hs.released] at h
    noCommand := fun h => by simp [hs.commanded] at h }
  released := hs.released
  commanded := hs.commanded

theorem setStatus (hs : s.RunInv) {st : Status} (h : st.legal = true) : (s.setStatus st).Inv :=
  { hs.inv with
    statusLegal := h
    heldReset := fun h => by simp [hs.released] at h
    noCommand := fun h => by simp [hs.commanded] at h }

theorem raise (hs : s.RunInv) (op : BitVec 8) (c : Cause) : (s.raise op c).Inv :=
  hs.setStatus (Status.legal_record ..)

theorem noteReads (hs : s.RunInv) (rs : List Reg) : (s.noteReads rs).RunInv :=
  ⟨hs.inv.noteReads rs, hs.released, hs.commanded⟩

theorem computes (hs : s.RunInv) {op : BitVec 8} (h : Computes op s t) : t.Inv := by
  cases h with
  | writes => exact hs.inv.setRegisters hs.released ..
  | fails c => exact hs.raise op c

/-- R164: issuing a DERIVE in append mode forgets the magic deltas. -/
theorem deriveIssued (hs : s.RunInv) (rs1 rs2 : Reg) : (s.deriveIssued rs1 rs2).RunInv where
  inv := by
    unfold State.deriveIssued State.issueDerive
    split
    · exact (hs.inv.noteReads _).forgetDerivations
    · exact hs.inv.noteReads _
  released := by simp [hs.released]
  commanded := by simp [hs.commanded]

theorem writeBytes (hs : s.RunInv) {a : Nat} {bs : List Byte} (h : bs.length ≤ s.cfg.streamCap - a) :
    (s.setStream (s.stream.writeBytes a bs)).RunInv :=
  ⟨hs.inv.writeBytes h, hs.released, hs.commanded⟩

theorem appended (hs : s.RunInv) (hroom : s.slen.toNat + 4 ≤ s.cfg.streamCap) (hnone : s.derivations = []) :
    s.appended.RunInv :=
  ⟨(hs.writeBytes (by simp; omega)).inv.setSlen hs.released hnone _, hs.released, hs.commanded⟩

/-- R153: the offset resolved leaves room for the patch, in a stream that the stream space holds. -/
theorem deriveFrom (hs : s.RunInv) (op : BitVec 8) (rd rx : Reg) (des : Word) {ro : Nat}
    (hro : ro + 4 ≤ s.slen.toNat) (hcap : s.slen.toNat ≤ s.cfg.streamCap) :
    (deriveFrom op rd rx des ro s).Inv := by
  rcases deriveFrom_cases op rd rx des ro s with ⟨-, heq⟩ | ⟨r, -, ⟨-, heq⟩ | ⟨m, -, heq⟩⟩ <;> rw [heq]
  · exact hs.raise ..
  · exact hs.raise ..
  · have hlt : ro < 2 ^ 64 := by have := s.slen.isLt; omega
    refine State.Inv.noteDerivation (hs.inv.setRegisters hs.released ..) ?_ hcap
    rwa [polyResult, BitVec.toNat_ofNat, Nat.mod_eq_of_lt hlt]

end State.RunInv

/-- What DERIVE's checks have established in append mode: the four bytes fit (R153, R154). -/
theorem deriveCheck_append {off : Int} {s : State} (h : deriveCheck off s = .ok .append) :
    off = -1 ∧ s.slen.toNat + 4 ≤ s.cfg.streamCap := by
  obtain ⟨-, -, hres, -, -, -, hroom⟩ := deriveCheck_ok h
  exact ⟨resolveOffset_append.1 hres, (hroom rfl).2⟩

theorem State.deriveIssued_derivations_append {s : State} {rs1 rs2 : Reg} (h : s.offsetOperand rs2 = -1) :
    (s.deriveIssued rs1 rs2).derivations = [] := by
  simp [State.deriveIssued_eq, h]

/-- R7: the new length is no more than STREAM_CAP, so it fits SLEN. -/
theorem State.appended_slen_toNat {s : State} (hcfg : s.cfg.wf) (hroom : s.slen.toNat + 4 ≤ s.cfg.streamCap) :
    s.appended.slen.toNat = s.slen.toNat + 4 := by
  obtain ⟨-, hcap⟩ := hcfg
  simp only [State.appended, State.setSlen_slen, BitVec.toNat_ofNat]
  omega

/-- An append DERIVE: the burst faults inside the stream space, or the stream has grown by the four bytes of the patch. -/
theorem State.RunInv.burstFault {s : State} (hs : s.RunInv) (hroom : s.slen.toNat + 4 ≤ s.cfg.streamCap) (op : BitVec 8) :
    (((s.setStream (s.stream.writeBytes s.slen.toNat (anyFourBytes s.draws))).setDraws (s.draws + 4)).raise op
      .ioPort).Inv := by
  have hwrite := hs.writeBytes (a := s.slen.toNat) (bs := anyFourBytes s.draws) (by simp [anyFourBytes]; omega)
  exact State.RunInv.raise ⟨hwrite.inv.setDraws _, hs.released, hs.commanded⟩ ..

theorem State.RunInv.deriveAppended {s : State} (hs : s.RunInv) (hroom : s.slen.toNat + 4 ≤ s.cfg.streamCap)
    (hnone : s.derivations = []) (op : BitVec 8) (rd rx : Reg) (des : Word) :
    (Sys2Proof.Machine.deriveFrom op rd rx des s.slen.toNat s.appended).Inv := by
  have hlen := State.appended_slen_toNat hs.inv.cfgWf hroom
  exact (hs.appended hroom hnone).deriveFrom _ _ _ _ hlen.ge (hlen.trans_le hroom)

theorem execDerive_inv {rd rx rs1 rs2 : Reg} {s t : State} (hs : s.RunInv) (h : execDerive rd rx rs1 rs2 s = .next t) :
    t.Inv := by
  have hissued := hs.deriveIssued rs1 rs2
  rcases execDerive_cases rd rx rs1 rs2 s with
    ⟨c, -, heq⟩ | ⟨ro, hcheck, heq⟩ | ⟨hcheck, -, heq⟩ | ⟨hcheck, -, heq⟩ <;> cases heq.symm.trans h
  · exact hissued.raise ..
  · obtain ⟨-, -, hres, hcap, -⟩ := deriveCheck_ok hcheck
    obtain ⟨-, hro, -⟩ := resolveOffset_inPlace hres
    exact hissued.deriveFrom _ _ _ _ (by simpa using hro) (by simpa using hcap)
  · obtain ⟨-, hroom⟩ := deriveCheck_append hcheck
    simpa using hissued.burstFault (by simpa using hroom) 0x31
  · obtain ⟨hoff, hroom⟩ := deriveCheck_append hcheck
    simpa using hissued.deriveAppended (by simpa using hroom) (State.deriveIssued_derivations_append hoff) 0x31 rd rx
      (s.crcOperand rs1)

theorem exec_inv {i : Instr} {s t : State} (hs : s.RunInv) (h : exec i s = .next t) : t.Inv := by
  rcases exec_cases h with h | ⟨rd, rx, rs1, rs2, -, h⟩
  · exact (hs.noteReads _).computes h
  · exact execDerive_inv hs h

theorem completeCommand_inv {w : Word} {s t : State} (hs : s.RunInv) (h : completeCommand w s = .next t) : t.Inv := by
  have hfree := hs.setInFlight_none
  rcases completeCommand_cases w s with ⟨herr, heq⟩ | ⟨-, -, heq⟩ | ⟨-, -, heq⟩ | ⟨i, -, -, heq⟩ <;> rw [heq] at h
  · cases h; exact hfree.setStatus (Status.legal_skipped hs.inv.statusLegal herr)
  · cases h; exact hfree.raise ..
  · cases h; exact hfree.raise ..
  · exact exec_inv hfree h

/-! Steps. -/

theorem Transition.inv {s t : State} (hs : s.Inv) (h : Transition s t) : t.Inv := by
  cases h with
  | nothing => exact hs
  | completes hheld hw ht => exact completeCommand_inv (.of_inFlight hs hheld hw) ht
  | assertsReset => exact hs.assertReset
  | releasesReset => exact hs.releaseReset
  | windowRead off => exact hs.hostRead off
  | windowWrite off v hheld => exact hs.hostWrite hheld off v
  | streamRead a => exact hs.reply _
  | streamWrite ha b => exact hs.storeStream ha b
  | patch hgood => exact (hs.hostPatch hgood).forgetDerivations

end Sys2Proof.Machine

namespace Sys2Proof.Proofs

open Sys2Proof.Machine

/-- Settles O21: each transition keeps the invariant, and every step is a transition on a state that differs in its inputs
only. -/
theorem everyStepKeepsInvariant : Obligations.EveryStepKeepsInvariant := by
  unfold Obligations.EveryStepKeepsInvariant
  intro s t hs h
  obtain ⟨l, ht⟩ := step_transition h
  exact ht.inv (hs.setInputs l)

end Sys2Proof.Proofs
end

section
/-! PROOFS. What each command may write, as named propositions, and the one inversion that bounds every command by them (R22,
R25, R27 to R29, R54). -/

namespace Sys2Proof.Machine

open Sys2Proof.Spec

/-- R25: the commands that load CRCREG. -/
def WritesCrcreg (i : Instr) : Prop :=
  i = .crcinit ∨ (∃ r, i = .crcfold r) ∨ (∃ r, i = .crcstrm r) ∨ ∃ rd rx rs1 rs2, i = .derive rd rx rs1 rs2

/-- R27: the commands that move CURSOR. -/
def WritesCursor (i : Instr) : Prop := (∃ r, i = .crcstrm r) ∨ ∃ rd rx rs1 rs2, i = .derive rd rx rs1 rs2

/-- R54, R154: a DERIVE in append mode, the only command that writes the stream. -/
def AppendsFrom (i : Instr) (s : State) : Prop :=
  ∃ rd rx rs1 rs2, i = .derive rd rx rs1 rs2 ∧ s.offsetOperand rs2 = -1

/-- From s to t nothing has changed but what the command i, issued on s, may write. -/
structure WritesWithin (i : Instr) (s t : State) : Prop where
  crcreg  : ¬WritesCrcreg i → t.crcreg = s.crcreg
  cursor  : ¬WritesCursor i → t.cursor = s.cursor
  stream  : ¬AppendsFrom i s → t.slen = s.slen ∧ t.stream = s.stream
  scap    : t.scap = s.scap
  operand : ∀ q ∉ dests i, t.readP q = s.readP q

namespace WritesWithin

variable {i : Instr} {s t : State}

theorem refl (i : Instr) (s : State) : WritesWithin i s s :=
  ⟨fun _ => rfl, fun _ => rfl, fun _ => ⟨rfl, rfl⟩, rfl, fun _ _ => rfl⟩

/-- Operand reads change the model's mark only. -/
theorem noteReads (h : WritesWithin i s t) (rs : List Reg) : WritesWithin i s (t.noteReads rs) :=
  ⟨h.crcreg, h.cursor, h.stream, h.scap, h.operand⟩

theorem raise (h : WritesWithin i s t) (op : BitVec 8) (c : Cause) : WritesWithin i s (t.raise op c) :=
  ⟨h.crcreg, h.cursor, h.stream, h.scap, h.operand⟩

theorem noteDerivation (h : WritesWithin i s t) (d : Derivation) : WritesWithin i s (t.noteDerivation d) :=
  ⟨h.crcreg, h.cursor, h.stream, h.scap, h.operand⟩

theorem issueDerive (h : WritesWithin i s t) (off : Int) : WritesWithin i s (t.issueDerive off) := by
  unfold State.issueDerive
  split
  · exact ⟨h.crcreg, h.cursor, h.stream, h.scap, h.operand⟩
  · exact h

theorem writeP (h : WritesWithin i s t) {r : Reg} (hr : r ∈ dests i) (v : DWord) : WritesWithin i s (t.writeP r v) where
  crcreg := h.crcreg
  cursor := h.cursor
  stream := h.stream
  scap := h.scap
  operand q hq := (t.readP_writeP_of_ne r q v (ne_of_mem_of_not_mem hr hq).symm).trans (h.operand q hq)

theorem setCrcreg (h : WritesWithin i s t) (hi : WritesCrcreg i) (w : Word) : WritesWithin i s (t.setCrcreg w) :=
  ⟨(absurd hi ·), h.cursor, h.stream, h.scap, h.operand⟩

theorem setCursor (h : WritesWithin i s t) (hi : WritesCursor i) (v : DWord) : WritesWithin i s (t.setCursor v) :=
  ⟨h.crcreg, (absurd hi ·), h.stream, h.scap, h.operand⟩

/-- R54: the append writes the stream and SLEN. -/
theorem appended (h : WritesWithin i s t) (hi : AppendsFrom i s) : WritesWithin i s t.appended :=
  ⟨h.crcreg, h.cursor, (absurd hi ·), h.scap, h.operand⟩

/-- R155: a faulting append burst leaves any bytes behind. -/
theorem burst (h : WritesWithin i s t) (hi : AppendsFrom i s) (m : Memory) (n : Nat) :
    WritesWithin i s ((t.setStream m).setDraws n) :=
  ⟨h.crcreg, h.cursor, (absurd hi ·), h.scap, h.operand⟩

theorem deriveFrom {rd rx rs1 rs2 : Reg} (h : WritesWithin (.derive rd rx rs1 rs2) s t) (op : BitVec 8) (des : Word)
    (ro : Nat) : WritesWithin (.derive rd rx rs1 rs2) s (deriveFrom op rd rx des ro t) := by
  rcases deriveFrom_cases op rd rx des ro t with ⟨-, heq⟩ | ⟨r, -, ⟨-, heq⟩ | ⟨m, -, heq⟩⟩ <;> rw [heq]
  · exact h.raise ..
  · exact h.raise ..
  · have hcrc := h.setCrcreg (.inr (.inr (.inr ⟨rd, rx, rs1, rs2, rfl⟩))) r
    have hcur := hcrc.setCursor (.inr ⟨rd, rx, rs1, rs2, rfl⟩) t.slen
    exact ((hcur.writeP (by simp [dests]) _).writeP (by simp [dests]) _).noteDerivation _

end WritesWithin

theorem AppendsFrom.of_deriveCheck {s : State} {rd rx rs1 rs2 : Reg}
    (h : deriveCheck (s.offsetOperand rs2) s = .ok .append) : AppendsFrom (.derive rd rx rs1 rs2) s := by
  obtain ⟨-, -, hmode, -⟩ := deriveCheck_ok h
  exact ⟨rd, rx, rs1, rs2, rfl, resolveOffset_append.1 hmode⟩

theorem execDerive_writesWithin {rd rx rs1 rs2 : Reg} {s t : State} (h : execDerive rd rx rs1 rs2 s = .next t) :
    WritesWithin (.derive rd rx rs1 rs2) s t := by
  have hissued : WritesWithin (.derive rd rx rs1 rs2) s (s.deriveIssued rs1 rs2) :=
    ((WritesWithin.refl _ s).noteReads _).issueDerive _
  rcases execDerive_cases rd rx rs1 rs2 s with
    ⟨c, -, heq⟩ | ⟨ro, -, heq⟩ | ⟨hmode, -, heq⟩ | ⟨hmode, -, heq⟩ <;> cases heq.symm.trans h
  · exact hissued.raise ..
  · exact hissued.deriveFrom ..
  · exact (hissued.burst (.of_deriveCheck hmode) _ _).raise ..
  · exact (hissued.appended (.of_deriveCheck hmode)).deriveFrom ..

/-- Every command stays within what it may write. -/
theorem exec_writesWithin {i : Instr} {s t : State} (h : exec i s = .next t) : WritesWithin i s t := by
  have hs := WritesWithin.refl i s
  cases i with
  | nop => cases h; exact hs
  | crcinit => cases h; exact hs.setCrcreg (.inl rfl) _
  | crcfold rs1 => cases h; exact (hs.noteReads _).setCrcreg (.inr (.inl ⟨rs1, rfl⟩)) _
  | crcfin rd => cases h; exact hs.writeP (by simp [dests]) _
  | crcstrm rd =>
    rcases execCrcstrm_cases rd s with ⟨c, -, heq⟩ | ⟨r, -, -, heq⟩ <;> cases heq.symm.trans h
    · exact hs.raise ..
    · have hcrc := hs.setCrcreg (.inr (.inr (.inl ⟨rd, rfl⟩))) r
      exact (hcrc.writeP (by simp [dests]) _).setCursor (.inl ⟨rd, rfl⟩) _
  | padd rd rs1 rs2 => cases h; exact (hs.noteReads _).writeP (by simp [dests]) _
  | mulmod rd rs1 rs2 => cases h; exact (hs.noteReads _).writeP (by simp [dests]) _
  | powmod rd rs1 rs2 => cases h; exact (hs.noteReads _).writeP (by simp [dests]) _
  | divrem rd rx rs1 rs2 =>
    rcases execDivrem_cases rd rx rs1 rs2 s with ⟨-, heq⟩ | ⟨-, heq⟩ <;> cases heq.symm.trans h
    · exact (hs.noteReads _).raise ..
    · exact ((hs.noteReads _).writeP (by simp [dests]) _).writeP (by simp [dests]) _
  | recip rd rs1 =>
    rcases execRecip_cases rd rs1 s with ⟨-, heq⟩ | ⟨v, -, heq⟩ <;> cases heq.symm.trans h
    · exact (hs.noteReads _).raise ..
    · exact (hs.noteReads _).writeP (by simp [dests]) _
  | degree rd rs1 => cases h; exact (hs.noteReads _).writeP (by simp [dests]) _
  | rev32 rd rs1 => cases h; exact (hs.noteReads _).writeP (by simp [dests]) _
  | delta rd rs1 rs2 rx =>
    rcases execDelta_cases rd rs1 rs2 rx s with ⟨-, heq⟩ | ⟨m, -, heq⟩ <;> cases heq.symm.trans h
    · exact (hs.noteReads _).raise ..
    · exact (hs.noteReads _).writeP (by simp [dests]) _
  | derive rd rx rs1 rs2 => exact execDerive_writesWithin h

end Sys2Proof.Machine

namespace Sys2Proof.Proofs

open Sys2Proof.Machine

/-- Settles O25: every command stays within what it may write, read from the changed field to the command. -/
theorem whichCommandsWriteWhat : Obligations.WhichCommandsWriteWhat := by
  unfold Obligations.WhichCommandsWriteWhat
  intro i s t h
  obtain ⟨hcrcreg, hcursor, hstream, hscap, hoperand⟩ := exec_writesWithin h
  refine ⟨not_imp_comm.1 hcrcreg, not_imp_comm.1 hcursor, fun hchanged => ?_, hscap, hoperand⟩
  by_contra hnot
  obtain ⟨hslen, hbytes⟩ := hstream hnot
  exact hchanged.elim (· hslen) (· hbytes)

end Sys2Proof.Proofs
end

section
/-! PROOFS. STATUS (R30): its layout as the host reads it, the read while a command is in flight (R35) and the host's write
(R31); and the reset values (R211). -/

namespace Sys2Proof.Machine

open Sys2Proof.Spec

/-- R30: the layout of STATUS, bit by bit from BUSY up. -/
theorem Status.getLsbD_word (st : Status) (busy : Bool) (i : Nat) :
    (st.word busy).getLsbD i =
      if i < 1 then busy
      else if i < 2 then st.skip
      else if i < 4 then false
      else if i < 8 then st.err.getLsbD (i - 4)
      else if i < 16 then st.cause.getLsbD (i - 8)
      else st.errop.getLsbD (i - 16) := by
  simp only [Status.word, BitVec.getLsbD_or, BitVec.getLsbD_shiftLeft, BitVec.getLsbD_setWidth, BitVec.getLsbD_ofBool]
  split_ifs <;> grind

/-- A field is cut out of a word whole when the word has its bits in their places. -/
theorem extractLsb'_eq_of_getLsbD {w : Word} {lo n : Nat} {field : BitVec n}
    (h : ∀ k < n, w.getLsbD (lo + k) = field.getLsbD k) : w.extractLsb' lo n = field :=
  BitVec.eq_of_getLsbD_eq fun k hk => by simpa [hk] using h k hk

/-- CLR and the reserved bit above it. -/
theorem Status.word_clr (st : Status) (busy : Bool) : (st.word busy).extractLsb' 2 2 = 0 :=
  extractLsb'_eq_of_getLsbD fun k hk => by
    simp (disch := omega) only [Status.getLsbD_word, if_neg, if_pos, BitVec.ofNat_eq_ofNat, BitVec.getLsbD_zero]

theorem Status.word_err (st : Status) (busy : Bool) : (st.word busy).extractLsb' 4 4 = st.err :=
  extractLsb'_eq_of_getLsbD fun k hk => by
    simp (disch := omega) only [Status.getLsbD_word, if_neg, if_pos, Nat.add_sub_cancel_left]

theorem Status.word_cause (st : Status) (busy : Bool) : (st.word busy).extractLsb' 8 8 = st.cause :=
  extractLsb'_eq_of_getLsbD fun k hk => by
    simp (disch := omega) only [Status.getLsbD_word, if_neg, if_pos, Nat.add_sub_cancel_left]

theorem Status.word_errop (st : Status) (busy : Bool) : (st.word busy).extractLsb' 16 8 = st.errop :=
  extractLsb'_eq_of_getLsbD fun k hk => by
    simp (disch := omega) only [Status.getLsbD_word, if_neg, Nat.add_sub_cancel_left]

/-- The reserved bits at the top. -/
theorem Status.word_reserved (st : Status) (busy : Bool) : (st.word busy).extractLsb' 24 8 = 0 :=
  extractLsb'_eq_of_getLsbD fun k hk => by
    simp (disch := omega) only [Status.getLsbD_word, if_neg, BitVec.getLsbD_of_ge, BitVec.ofNat_eq_ofNat,
      BitVec.getLsbD_zero]

/-- R35: BUSY is bit 0 and shares it with nothing. -/
theorem Status.word_true (st : Status) : st.word true = st.word false ||| 1#32 := by
  simp [Status.word]

theorem State.hostRead_status (s : State) :
    s.hostRead 0x08 = s.reply (.window 0x08 (wordResult s.statusWord)) := rfl

theorem stepBusy_of_statusRead {w : Word} {s : State} {rest : List Input} (h : s.inputs = .windowRead 0x08 :: rest) :
    stepBusy w s = .next ((s.setInputs rest).hostRead 0x08) := by
  have hreg : windowReg 0x08 = some .status := (windowReg_status _).2 rfl
  simp only [stepBusy, h, if_pos hreg]

theorem step_of_idle_statusWrite {s : State} {v : DWord} {rest : List Input} (hidle : Idle s)
    (h : s.inputs = .windowWrite 0x08 v :: rest) : step s = .next ((s.setInputs rest).writeStatus v) := by
  obtain ⟨hnone, hheld⟩ := hidle
  rw [step_idle hheld hnone]
  simp only [stepIdle, h]
  rfl

theorem State.writeStatus_of_clr {v : DWord} (hv : v.getLsbD 2 = true) (s : State) : s.writeStatus v = s.clearError :=
  if_pos hv

theorem State.writeStatus_of_not_clr {v : DWord} (hv : v.getLsbD 2 = false) (s : State) : s.writeStatus v = s :=
  if_neg (Bool.eq_false_iff.1 hv)

end Sys2Proof.Machine

namespace Sys2Proof.Proofs

open Sys2Proof.Machine Sys2Proof.Spec

/-- Settles O10: the step is the write of STATUS, and after a clear no error is recorded, so the word that is put in flight runs
as in O7. -/
theorem statusWriteClears : Obligations.StatusWriteClears := by
  unfold Obligations.StatusWriteClears
  constructor
  · intro s v rest hidle hin
    rw [step_of_idle_statusWrite hidle hin]
    exact ⟨fun hv => congrArg _ (State.writeStatus_of_clr hv _), fun hv => congrArg _ (State.writeStatus_of_not_clr hv _)⟩
  · intro s t v rest w i hidle hin hv hstep hdecode
    rw [step_of_idle_statusWrite hidle hin, State.writeStatus_of_clr hv] at hstep
    cases hstep
    obtain ⟨hnone, hheld⟩ := hidle
    have hrun := stepRunsTheCommandInFlight.2 (s.setInputs rest).clearError w i rfl hdecode
    rw [hrun, ← hnone, ← hheld]
    rfl

/-- Settles O15: the read of STATUS is the one access that stepBusy answers, and BUSY is the bit it adds. -/
theorem statusReadWhileBusy : Obligations.StatusReadWhileBusy := by
  unfold Obligations.StatusReadWhileBusy
  intro s w rest hheld hw hin
  have hword : (s.setInputs rest).statusWord = s.status.word false ||| 1#32 := by
    simp [State.statusWord, hw, Status.word_true]
  rw [step_busy hheld hw, stepBusy_of_statusRead hin, State.hostRead_status, hword]
  rfl

/-- Settles O17: each register of State.reset has R211's value, and SCAP and STATUS read 0 by their layout. -/
theorem resetValues : Obligations.ResetValues := by
  unfold Obligations.ResetValues
  exact ⟨rfl, rfl, rfl, by decide, by decide, rfl, rfl⟩

/-- Settles O13: bits 0 and 1 are single places of the layout, and each field of several bits is cut out of the word whole. -/
theorem statusLayoutAndCodes : Obligations.StatusLayoutAndCodes := by
  unfold Obligations.StatusLayoutAndCodes
  refine ⟨fun s => ?_, by decide⟩
  exact ⟨Status.getLsbD_word _ _ 0, Status.getLsbD_word _ _ 1, Status.word_clr _ _, Status.word_err _ _,
    Status.word_cause _ _, Status.word_errop _ _, Status.word_reserved _ _⟩

end Sys2Proof.Proofs
end

section
/-! PROOFS. The register map of the host window (R60, R61): which offsets have a register, and what a read and a write of one
do on an idle core. -/

namespace Sys2Proof.Machine

open Sys2Proof.Spec

/-! The map. -/

/-- R60: the operand registers stand from offset 0x40 up, eight bytes each. -/
theorem windowReg_operand (off : BitVec 8) (n : Reg) :
    windowReg off = some (.operand n) ↔ off.toNat = 0x40 + 8 * n.val := by
  revert off n; decide +kernel

/-- R61: the offsets with no register. -/
theorem windowReg_none (off : BitVec 8) :
    windowReg off = none ↔ off.toNat % 8 ≠ 0 ∨ off.toNat = 0x30 ∨ off.toNat = 0x38 ∨ 0x80 ≤ off.toNat := by
  revert off; decide +kernel

/-- An offset outside 0x40 .. 0x78, or not a multiple of 8, is no operand register's. -/
theorem windowReg_ne_operand {off : BitVec 8} (h : off.toNat < 0x40 ∨ 0x80 ≤ off.toNat ∨ off.toNat % 8 ≠ 0) (n : Reg) :
    windowReg off ≠ some (.operand n) := by
  rw [Ne, windowReg_operand]; omega

/-! Reads. -/

theorem State.windowValue_of_windowReg {off : BitVec 8} {r : WindowReg} (h : windowReg off = some r) (s : State) :
    s.windowValue off = s.windowRegValue r := by
  simp only [State.windowValue, h]

theorem State.windowValue_of_windowReg_none {off : BitVec 8} (h : windowReg off = none) (s : State) :
    s.windowValue off = 0 := by
  simp only [State.windowValue, h]

theorem State.noteWindowRead_of_operand {off : BitVec 8} {n : Reg} (h : windowReg off = some (.operand n)) (s : State) :
    s.noteWindowRead off = s.noteReads [n] := by
  simp only [State.noteWindowRead, h]

theorem State.noteWindowRead_of_ne_operand {off : BitVec 8} (h : ∀ n, windowReg off ≠ some (.operand n)) (s : State) :
    s.noteWindowRead off = s := by
  unfold State.noteWindowRead
  split
  next n hn => exact absurd hn (h n)
  all_goals rfl

/-- R59: a window read gives its reply and moves no field but the mark. -/
theorem State.hostRead_eq_reply_mark (s : State) (off : BitVec 8) :
    s.hostRead off = { s with
      uninitRead := (s.noteWindowRead off).uninitRead
      replies := .window off (s.windowValue off) :: s.replies } := by
  by_cases h : ∃ n, windowReg off = some (.operand n)
  · obtain ⟨n, hn⟩ := h
    rw [State.hostRead, State.noteWindowRead_of_operand hn]; rfl
  · rw [State.hostRead, State.noteWindowRead_of_ne_operand (not_exists.1 h)]; rfl

theorem step_of_idle_windowRead {s : State} {off : BitVec 8} {rest : List Input} (hidle : Idle s)
    (h : s.inputs = .windowRead off :: rest) : step s = .next ((s.setInputs rest).hostRead off) := by
  obtain ⟨hnone, hheld⟩ := hidle
  rw [step_idle hheld hnone, stepIdle, h]

/-! Writes. -/

theorem State.hostWrite_of_operand {off : BitVec 8} {n : Reg} (h : windowReg off = some (.operand n)) (s : State)
    (v : DWord) : s.hostWrite off v = s.writeP n v := by
  simp only [State.hostWrite, h]

theorem State.hostWrite_of_windowReg_none {off : BitVec 8} (h : windowReg off = none) (s : State) (v : DWord) :
    s.hostWrite off v = s := by
  simp only [State.hostWrite, h]

/-- R31: a write of STATUS moves STATUS only. -/
theorem State.writeStatus_eq (s : State) (v : DWord) :
    s.writeStatus v = { s with status := if v.getLsbD 2 then Status.clear else s.status } := by
  unfold State.writeStatus; split <;> rfl

/-- R29: the bits of SCAP are the low bits of what the host writes. -/
theorem Scap.ofWord_setWidth (v : DWord) :
    Scap.ofWord (v.setWidth 32) = ⟨v.getLsbD 0, v.getLsbD 1, v.getLsbD 2, v.getLsbD 3⟩ := by
  simp [Scap.ofWord]

theorem step_of_idle_windowWrite {s : State} {off : BitVec 8} {v : DWord} {rest : List Input} (hidle : Idle s)
    (h : s.inputs = .windowWrite off v :: rest) : step s = .next ((s.setInputs rest).hostWrite off v) := by
  obtain ⟨hnone, hheld⟩ := hidle
  rw [step_idle hheld hnone, stepIdle, h]

end Sys2Proof.Machine

namespace Sys2Proof.Proofs

open Sys2Proof.Machine Sys2Proof.Spec

/-- Settles O14: the step is the read or the write of the window. The registers below 0x40 have one offset each, the operand
registers and the offsets with no register go by the map. -/
theorem windowMap : Obligations.WindowMap := by
  unfold Obligations.WindowMap
  intro s off v rest hidle
  constructor
  · intro hin
    rw [step_of_idle_windowRead hidle hin, State.hostRead_eq_reply_mark]
    refine ⟨(s.setInputs rest).windowValue off, ((s.setInputs rest).noteWindowRead off).uninitRead, rfl, ?_, ?_, ?_, ?_,
      ?_, ?_, fun n hn => ?_, fun hreserved => ?_, fun hother => ?_⟩
    · rintro rfl; rfl
    · rintro rfl; rfl
    · rintro rfl; rfl
    · rintro rfl; rfl
    · rintro rfl; rfl
    · rintro rfl; rfl
    · have hreg := (windowReg_operand off n).2 hn
      exact ⟨State.windowValue_of_windowReg hreg _, by rw [State.noteWindowRead_of_operand hreg]; rfl⟩
    · exact State.windowValue_of_windowReg_none ((windowReg_none off).2 hreserved) _
    · rw [State.noteWindowRead_of_ne_operand (windowReg_ne_operand hother)]; rfl
  · intro hin
    rw [step_of_idle_windowWrite hidle hin]
    refine ⟨?_, ?_, ?_, ?_, ?_, ?_, fun n hn => ?_, fun hreserved => ?_⟩
    · rintro rfl; rfl
    · rintro rfl; exact congrArg _ (State.writeStatus_eq _ _)
    · rintro rfl; rfl
    · rintro rfl; rfl
    · rintro rfl; exact congrArg _ (State.writeSlen_eq _ _)
    · rintro rfl; rw [← Scap.ofWord_setWidth]; rfl
    · rw [State.hostWrite_of_operand ((windowReg_operand off n).2 hn)]; rfl
    · rw [State.hostWrite_of_windowReg_none ((windowReg_none off).2 hreserved)]; rfl

end Sys2Proof.Proofs
end

section
/-! PROOFS. Every command that completes answers a next state (R218) and leaves alone what stands around the core: the
platform, SCAP, the reset line, the command in flight, and what the host has asked and been answered. -/

namespace Sys2Proof.Machine

/-- What no command moves. -/
structure Boundary where
  cfg       : Config
  scap      : Scap
  resetHeld : Bool
  inFlight  : Option Word
  commanded : Bool
  inputs    : List Input
  replies   : List Reply

def State.boundary (s : State) : Boundary :=
  { cfg := s.cfg, scap := s.scap, resetHeld := s.resetHeld, inFlight := s.inFlight, commanded := s.commanded,
    inputs := s.inputs, replies := s.replies }

theorem State.raise_boundary (s : State) (op : BitVec 8) (c : Cause) : (s.raise op c).boundary = s.boundary := rfl

theorem State.appended_boundary (s : State) : s.appended.boundary = s.boundary := rfl

theorem State.burst_boundary (s : State) (m : Memory) (n : Nat) :
    ((s.setStream m).setDraws n).boundary = s.boundary := rfl

theorem Computes.boundary_eq {op : BitVec 8} {s t : State} (h : Computes op s t) : t.boundary = s.boundary := by
  cases h with
  | writes => rfl
  | fails => rfl

theorem State.deriveIssued_boundary (s : State) (rs1 rs2 : Reg) : (s.deriveIssued rs1 rs2).boundary = s.boundary := by
  rw [State.deriveIssued_eq]; rfl

theorem deriveFrom_boundary (op : BitVec 8) (rd rx : Reg) (des : Word) (ro : Nat) (s : State) :
    (deriveFrom op rd rx des ro s).boundary = s.boundary := by
  rcases deriveFrom_cases op rd rx des ro s with ⟨-, heq⟩ | ⟨r, -, ⟨-, heq⟩ | ⟨m, -, heq⟩⟩ <;> rw [heq] <;> rfl

theorem execDerive_answersNext (rd rx rs1 rs2 : Reg) (s : State) :
    ∃ t, execDerive rd rx rs1 rs2 s = .next t ∧ t.boundary = s.boundary := by
  have hissued := s.deriveIssued_boundary rs1 rs2
  rcases execDerive_cases rd rx rs1 rs2 s with
    ⟨c, -, heq⟩ | ⟨ro, -, heq⟩ | ⟨-, -, heq⟩ | ⟨-, -, heq⟩ <;> refine ⟨_, heq, ?_⟩
  · rw [State.raise_boundary, hissued]
  · rw [deriveFrom_boundary, hissued]
  · rw [State.raise_boundary, State.burst_boundary, hissued]
  · rw [deriveFrom_boundary, State.appended_boundary, hissued]

/-- R218: no command is without an answer. -/
theorem exec_next (i : Instr) (s : State) : ∃ t, exec i s = .next t := by
  cases i with
  | crcstrm rd => rcases execCrcstrm_cases rd s with ⟨c, -, heq⟩ | ⟨r, -, -, heq⟩ <;> exact ⟨_, heq⟩
  | divrem rd rx rs1 rs2 => rcases execDivrem_cases rd rx rs1 rs2 s with ⟨-, heq⟩ | ⟨-, heq⟩ <;> exact ⟨_, heq⟩
  | recip rd rs1 => rcases execRecip_cases rd rs1 s with ⟨-, heq⟩ | ⟨v, -, heq⟩ <;> exact ⟨_, heq⟩
  | delta rd rs1 rs2 rx => rcases execDelta_cases rd rs1 rs2 rx s with ⟨-, heq⟩ | ⟨m, -, heq⟩ <;> exact ⟨_, heq⟩
  | derive rd rx rs1 rs2 => exact (execDerive_answersNext rd rx rs1 rs2 s).imp fun _ h => h.1
  | _ => exact ⟨_, rfl⟩

/-- R218: a command that runs answers a next state and leaves the boundary alone. -/
theorem exec_answersNext (i : Instr) (s : State) : ∃ t, exec i s = .next t ∧ t.boundary = s.boundary := by
  obtain ⟨t, h⟩ := exec_next i s
  rcases exec_cases h with hcomp | ⟨rd, rx, rs1, rs2, rfl, -⟩
  · exact ⟨t, h, hcomp.boundary_eq⟩
  · exact execDerive_answersNext rd rx rs1 rs2 s

/-- R17, R86: the command in flight completes whatever its word: it is skipped, rejected or run. -/
theorem completeCommand_answersNext (w : Word) (s : State) :
    ∃ t, completeCommand w s = .next t ∧ t.boundary = (s.setInFlight none).boundary := by
  rcases completeCommand_cases w s with ⟨-, heq⟩ | ⟨-, -, heq⟩ | ⟨-, -, heq⟩ | ⟨i, -, -, heq⟩
  · exact ⟨_, heq, rfl⟩
  · exact ⟨_, heq, rfl⟩
  · exact ⟨_, heq, rfl⟩
  · rw [heq]; exact exec_answersNext i _

end Sys2Proof.Machine

namespace Sys2Proof.Proofs

open Sys2Proof.Machine Sys2Proof.Spec

/-- Settles O16: an access that waits has the step complete the command, whose boundary keeps the access to come. -/
theorem accessWaitsWhileBusy : Obligations.AccessWaitsWhileBusy := by
  unfold Obligations.AccessWaitsWhileBusy
  intro s w a rest hheld hw hin hwait
  have hcompletes : Completes s w (a :: rest) := ⟨hheld, hw, .inr ⟨hin, by simpa using hwait⟩⟩
  obtain ⟨t, ht, hboundary⟩ := completeCommand_answersNext w (s.setInputs (a :: rest))
  exact ⟨t, (step_of_completes hcompletes).trans ht, congrArg Boundary.inFlight hboundary,
    congrArg Boundary.inputs hboundary, congrArg Boundary.replies hboundary⟩

end Sys2Proof.Proofs
end

section
/-! PROOFS. The encoding as fields (R81): a word is its six fields, encode puts a command's fields in their places, and a
word under the mask of R85 keeps OP, RSV and the register fields its opcode does not use. -/

namespace Sys2Proof

open Sys2Proof.Machine

/-- R81: bit i of the word with these fields. -/
def RawCmd.bit (c : RawCmd) (i : Nat) : Bool :=
  if i < 8 then c.op.getLsbD i
  else if i < 11 then c.rd.getLsbD (i - 8)
  else if i < 14 then c.rs1.getLsbD (i - 11)
  else if i < 17 then c.rs2.getLsbD (i - 14)
  else if i < 20 then c.rx.getLsbD (i - 17)
  else c.rsv.getLsbD (i - 20)

@[simp] theorem RawCmd.ofWord_op (w : Word) : (RawCmd.ofWord w).op = opField w := rfl

theorem RawCmd.bit_ofWord (w : Word) {i : Nat} (hi : i < 32) : (RawCmd.ofWord w).bit i = w.getLsbD i := by
  simp only [RawCmd.bit, RawCmd.ofWord, opField, BitVec.getLsbD_extractLsb']
  split_ifs <;> grind

/-- R81: the fields lie side by side and fill the word. -/
theorem RawCmd.ofWord_eq_iff {w : Word} {c : RawCmd} : RawCmd.ofWord w = c ↔ ∀ i < 32, w.getLsbD i = c.bit i := by
  constructor
  · rintro rfl i hi
    exact (RawCmd.bit_ofWord w hi).symm
  · intro h
    have hfield {lo n : Nat} {f : BitVec n} (hlo : lo + n ≤ 32) (hf : ∀ k < n, c.bit (lo + k) = f.getLsbD k) :
        w.extractLsb' lo n = f := extractLsb'_eq_of_getLsbD fun k hk => (h _ (by omega)).trans (hf k hk)
    cases c
    simp only [RawCmd.ofWord, opField, RawCmd.mk.injEq]
    refine ⟨hfield (by decide) ?_, hfield (by decide) ?_, hfield (by decide) ?_, hfield (by decide) ?_,
      hfield (by decide) ?_, hfield (by decide) ?_⟩ <;> intro k hk <;>
      simp (disch := omega) only [RawCmd.bit, if_pos, if_neg, Nat.add_sub_cancel_left, Nat.zero_add]

theorem RawCmd.ofWord_injective : Function.Injective RawCmd.ofWord := fun v w h =>
  BitVec.eq_of_getLsbD_eq fun i hi => by rw [← RawCmd.bit_ofWord v hi, h, RawCmd.bit_ofWord w hi]

/-! The encoder. -/

/-- R88: the shifts of enc put the fields in the places of R81. -/
theorem RawCmd.ofWord_enc (op : BitVec 8) (rd rs1 rs2 rx : Reg) :
    RawCmd.ofWord (enc op rd rs1 rs2 rx) = ⟨op, .ofFin rd, .ofFin rs1, .ofFin rs2, .ofFin rx, 0⟩ := by
  have hreg (r : Reg) : BitVec.ofNat 32 r.val = (BitVec.ofFin r : BitVec 3).setWidth 32 :=
    BitVec.eq_of_toNat_eq (by simp)
  refine RawCmd.ofWord_eq_iff.mpr fun i hi => ?_
  simp only [enc, hreg, RawCmd.bit, BitVec.getLsbD_or, BitVec.getLsbD_shiftLeft, BitVec.getLsbD_setWidth]
  split_ifs <;> grind

theorem RawCmd.ofWord_setWidth (op : BitVec 8) : RawCmd.ofWord (op.setWidth 32) = ⟨op, 0, 0, 0, 0, 0⟩ := by
  have henc : op.setWidth 32 = enc op 0 0 0 0 := by simp [enc]
  exact henc ▸ RawCmd.ofWord_enc op 0 0 0 0

theorem RawCmd.ofWord_encode (i : Instr) : RawCmd.ofWord (encode i) = i.raw := by
  cases i <;> exact RawCmd.ofWord_enc _ _ _ _ _

/-- R82: no register number is special, so every choice of operands is well formed. -/
theorem Instr.wellFormed_eq_true (i : Instr) : i.wellFormed = true := by
  cases i <;> rfl

theorem Instr.unusedZero_raw (i : Instr) : i.raw.unusedZero = true :=
  (Bool.and_eq_true_iff.mp i.wellFormed_eq_true).2

theorem Instr.raw_op (i : Instr) : i.raw.op = i.opcode := by
  cases i <;> rfl

/-! The masks of R85. -/

theorem RawCmd.uses_eq_of_op {c d : RawCmd} (h : c.op = d.op) :
    c.usesRd = d.usesRd ∧ c.usesRs1 = d.usesRs1 ∧ c.usesRs2 = d.usesRs2 ∧ c.usesRx = d.usesRx := by
  simp only [RawCmd.usesRd, RawCmd.usesRs1, RawCmd.usesRs2, RawCmd.usesRx, h, and_self]

/-- R85: OP, RSV and each register field that is not used. -/
def RawCmd.mask (c : RawCmd) : Word :=
  0xFFF000FF ||| (bif c.usesRd then 0 else 0x00000700) ||| (bif c.usesRs1 then 0 else 0x00003800) |||
    (bif c.usesRs2 then 0 else 0x0001C000) ||| (bif c.usesRx then 0 else 0x000E0000)

theorem RawCmd.ofWord_mask (c : RawCmd) : RawCmd.ofWord c.mask =
    ⟨0xFF, bif c.usesRd then 0 else 7, bif c.usesRs1 then 0 else 7, bif c.usesRs2 then 0 else 7,
      bif c.usesRx then 0 else 7, 0xFFF⟩ := by
  unfold RawCmd.mask
  generalize c.usesRd = rd, c.usesRs1 = rs1, c.usesRs2 = rs2, c.usesRx = rx
  revert rd rs1 rs2 rx
  decide

theorem RawCmd.ofWord_and (v w : Word) : RawCmd.ofWord (v &&& w) =
    ⟨(RawCmd.ofWord v).op &&& (RawCmd.ofWord w).op, (RawCmd.ofWord v).rd &&& (RawCmd.ofWord w).rd,
      (RawCmd.ofWord v).rs1 &&& (RawCmd.ofWord w).rs1, (RawCmd.ofWord v).rs2 &&& (RawCmd.ofWord w).rs2,
      (RawCmd.ofWord v).rx &&& (RawCmd.ofWord w).rx, (RawCmd.ofWord v).rsv &&& (RawCmd.ofWord w).rsv⟩ := by
  simp [RawCmd.ofWord, opField, BitVec.extractLsb'_and]

/-- A register field under its part of the mask. -/
theorem and_unused_eq_zero (r : BitVec 3) (used : Bool) :
    r &&& (bif used then 0 else 7) = 0 ↔ (used || r == 0) = true := by
  revert r used
  decide

/-- R85: mask and match ask for the opcode and for 0 in RSV and the unused fields, and for nothing else. -/
theorem RawCmd.and_mask_eq_iff {w : Word} {c : RawCmd} :
    w &&& c.mask = c.op.setWidth 32 ↔ opField w = c.op ∧ (RawCmd.ofWord w).unusedZero = true := by
  have hop (b : BitVec 8) : b &&& 0xFF = b := BitVec.and_allOnes
  have hrsv (b : BitVec 12) : b &&& 0xFFF = b := BitVec.and_allOnes
  rw [← RawCmd.ofWord_injective.eq_iff, RawCmd.ofWord_and, RawCmd.ofWord_mask, RawCmd.ofWord_setWidth]
  simp only [RawCmd.mk.injEq, hop, hrsv, and_unused_eq_zero]
  refine and_congr_right fun h => ?_
  obtain ⟨hrd, hrs1, hrs2, hrx⟩ := RawCmd.uses_eq_of_op h
  simp only [RawCmd.unusedZero, hrd, hrs1, hrs2, hrx, Bool.and_eq_true, beq_iff_eq]
  tauto

/-- R85, column mask, by opcode. -/
def opMask (op : BitVec 8) : Word := RawCmd.mask ⟨op, 0, 0, 0, 0, 0⟩

theorem and_opMask_eq_iff {w : Word} {op : BitVec 8} :
    w &&& opMask op = op.setWidth 32 ↔ opField w = op ∧ (RawCmd.ofWord w).unusedZero = true :=
  RawCmd.and_mask_eq_iff

end Sys2Proof
end

section
/-! PROOFS. The decoder by fields (R86): what it answers for each outcome of steps 2 and 3, and that the command it reads is
the one whose fields the word carries. -/

namespace Sys2Proof

/-- R86 step 3 for the row of opcode n. -/
theorem decodeRow_eq {w mask mtch : Word} {n : Nat} (hop : (opField w).toNat = n)
    (hmask : mask = opMask (BitVec.ofNat 8 n)) (hmatch : mtch = (BitVec.ofNat 8 n).setWidth 32) (i : Instr) :
    decodeRow w mask mtch i = if (RawCmd.ofWord w).unusedZero = true then .ok i else .error .illReserved := by
  have hopw : opField w = BitVec.ofNat 8 n := by rw [← hop, BitVec.ofNat_toNat, BitVec.setWidth_eq]
  simp only [decodeRow, spells, beq_iff_eq, hmask, hmatch, and_opMask_eq_iff, hopw, true_and]

theorem RawCmd.assigned_iff {c : RawCmd} : c.assigned = true ↔
    c.op.toNat = 0x00 ∨ c.op.toNat = 0x10 ∨ c.op.toNat = 0x11 ∨ c.op.toNat = 0x12 ∨ c.op.toNat = 0x13 ∨
    c.op.toNat = 0x20 ∨ c.op.toNat = 0x21 ∨ c.op.toNat = 0x22 ∨ c.op.toNat = 0x23 ∨ c.op.toNat = 0x24 ∨
    c.op.toNat = 0x25 ∨ c.op.toNat = 0x26 ∨ c.op.toNat = 0x30 ∨ c.op.toNat = 0x31 := by
  simp only [RawCmd.assigned, List.contains_cons, List.contains_nil, Bool.or_eq_true, beq_iff_eq, Bool.false_eq_true,
    or_false]

/-- R86 steps 2 and 3: which words are rejected, and by which name. -/
theorem decode_rejects (w : Word) :
    ((RawCmd.ofWord w).assigned = false ∧ decode w = .error .illOpcode) ∨
    ((RawCmd.ofWord w).assigned = true ∧
      ∃ i, decode w = if (RawCmd.ofWord w).unusedZero = true then .ok i else .error .illReserved) := by
  unfold decode
  split
  case h_15 => exact .inl ⟨by rw [← Bool.not_eq_true, RawCmd.assigned_iff, RawCmd.ofWord_op]; tauto, rfl⟩
  all_goals
    rename_i hop
    exact .inr ⟨by simp [RawCmd.assigned_iff, hop], _, decodeRow_eq hop (by decide) (by decide) _⟩

theorem regField_eq {lo : Nat} {w : Word} {r : Reg} (h : w.extractLsb' lo 3 = .ofFin r) : regField lo w = r := by
  simp [regField, h]

/-- R86 step 4: the command is read from the fields, whatever their registers. -/
theorem decode_eq_ok {w : Word} {i : Instr} (h : RawCmd.ofWord w = i.raw) : decode w = .ok i := by
  have hunused : (RawCmd.ofWord w).unusedZero = true := h ▸ i.unusedZero_raw
  cases i <;>
    (obtain ⟨hop, hrd, hrs1, hrs2, hrx, -⟩ := RawCmd.mk.inj h
     simp only [decode, hop, rdField, rs1Field, rs2Field, rxField, regField_eq hrd, regField_eq hrs1, regField_eq hrs2,
       regField_eq hrx]
     exact (decodeRow_eq (congrArg BitVec.toNat hop) (by decide) (by decide) _).trans (if_pos hunused))

theorem RawCmd.eq_of_unusedZero {c : RawCmd} (h : c.unusedZero = true) :
    c = ⟨c.op, bif c.usesRd then c.rd else 0, bif c.usesRs1 then c.rs1 else 0, bif c.usesRs2 then c.rs2 else 0,
      bif c.usesRx then c.rx else 0, 0⟩ := by
  have hreg {used : Bool} {r : BitVec 3} : (used || r == 0) = true → r = bif used then r else 0 := by
    cases used <;> simp
  obtain ⟨op, rd, rs1, rs2, rx, rsv⟩ := c
  simp only [RawCmd.unusedZero, Bool.and_eq_true] at h
  obtain ⟨⟨⟨⟨hrsv, hrd⟩, hrs1⟩, hrs2⟩, hrx⟩ := h
  exact RawCmd.mk.injEq .. ▸ ⟨rfl, hreg hrd, hreg hrs1, hreg hrs2, hreg hrx, beq_iff_eq.mp hrsv⟩

/-- R84, R85: well-formed fields are those of a command, one for each assigned opcode. -/
theorem RawCmd.exists_raw_eq {c : RawCmd} (h : c.wellFormed = true) : ∃ i : Instr, i.raw = c := by
  obtain ⟨hassigned, hunused⟩ := Bool.and_eq_true_iff.mp h
  rw [RawCmd.eq_of_unusedZero hunused]
  clear h hunused
  obtain ⟨op, rd, rs1, rs2, rx, rsv⟩ := c
  have hop : op = BitVec.ofNat 8 op.toNat := by simp
  rw [RawCmd.assigned_iff] at hassigned
  dsimp only at hassigned
  generalize op.toNat = n at hassigned hop
  subst hop
  rcases hassigned with rfl | rfl | rfl | rfl | rfl | rfl | rfl | rfl | rfl | rfl | rfl | rfl | rfl | rfl
  · exact ⟨.nop, rfl⟩
  · exact ⟨.crcinit, rfl⟩
  · exact ⟨.crcfold rs1.toFin, rfl⟩
  · exact ⟨.crcfin rd.toFin, rfl⟩
  · exact ⟨.crcstrm rd.toFin, rfl⟩
  · exact ⟨.padd rd.toFin rs1.toFin rs2.toFin, rfl⟩
  · exact ⟨.mulmod rd.toFin rs1.toFin rs2.toFin, rfl⟩
  · exact ⟨.powmod rd.toFin rs1.toFin rs2.toFin, rfl⟩
  · exact ⟨.divrem rd.toFin rx.toFin rs1.toFin rs2.toFin, rfl⟩
  · exact ⟨.recip rd.toFin rs1.toFin, rfl⟩
  · exact ⟨.degree rd.toFin rs1.toFin, rfl⟩
  · exact ⟨.rev32 rd.toFin rs1.toFin, rfl⟩
  · exact ⟨.delta rd.toFin rs1.toFin rs2.toFin rx.toFin, rfl⟩
  · exact ⟨.derive rd.toFin rx.toFin rs1.toFin rs2.toFin, rfl⟩

theorem exists_decode_eq_ok {w : Word} (h : (RawCmd.ofWord w).wellFormed = true) :
    ∃ i, i.raw = RawCmd.ofWord w ∧ decode w = .ok i :=
  (RawCmd.exists_raw_eq h).imp fun _ hi => ⟨hi, decode_eq_ok hi.symm⟩

/-- R86: the decoder's three answers, by the checks of steps 2 and 3. -/
theorem decode_cases (w : Word) :
    ((RawCmd.ofWord w).assigned = false ∧ decode w = .error .illOpcode) ∨
    ((RawCmd.ofWord w).assigned = true ∧ (RawCmd.ofWord w).unusedZero = false ∧ decode w = .error .illReserved) ∨
    ((RawCmd.ofWord w).assigned = true ∧ (RawCmd.ofWord w).unusedZero = true ∧
      ∃ i, i.raw = RawCmd.ofWord w ∧ decode w = .ok i) := by
  rcases decode_rejects w with hop | ⟨hassigned, i, hd⟩
  · exact .inl hop
  · cases hunused : (RawCmd.ofWord w).unusedZero with
    | false => exact .inr (.inl ⟨hassigned, rfl, by rw [hd, hunused]; rfl⟩)
    | true => exact .inr (.inr ⟨hassigned, rfl, exists_decode_eq_ok (Bool.and_eq_true_iff.mpr ⟨hassigned, hunused⟩)⟩)

theorem decode_eq_ok_iff {w : Word} {i : Instr} : decode w = .ok i ↔ RawCmd.ofWord w = i.raw := by
  refine ⟨fun h => ?_, decode_eq_ok⟩
  rcases decode_cases w with ⟨-, hd⟩ | ⟨-, -, hd⟩ | ⟨-, -, j, hraw, hd⟩
  · cases hd.symm.trans h
  · cases hd.symm.trans h
  · cases hd.symm.trans h
    exact hraw.symm

end Sys2Proof

namespace Sys2Proof.Proofs

open Sys2Proof.Machine Sys2Proof.Spec

/-- Settles O1: encode puts a command's fields in their places, and the decoder reads the command from its fields. -/
theorem encodedCommandDecodesBack : Obligations.EncodedCommandDecodesBack := by
  unfold Obligations.EncodedCommandDecodesBack
  exact fun i => ⟨i.wellFormed_eq_true, RawCmd.ofWord_encode i, decode_eq_ok (RawCmd.ofWord_encode i)⟩

/-- Settles O2: both words have the command's fields, and a word is its fields. -/
theorem decodedWordIsTheEncoding : Obligations.DecodedWordIsTheEncoding := by
  unfold Obligations.DecodedWordIsTheEncoding
  exact fun w i h => RawCmd.ofWord_injective ((decode_eq_ok_iff.mp h).trans (RawCmd.ofWord_encode i).symm)

/-- Settles O3: the three cases of decode_cases exclude each other, and so do the decoder's three answers. -/
theorem decoderFollowsFieldRules : Obligations.DecoderFollowsFieldRules := by
  unfold Obligations.DecoderFollowsFieldRules
  intro w
  rw [RawCmd.wellFormed]
  rcases decode_cases w with ⟨ha, hd⟩ | ⟨ha, hu, hd⟩ | ⟨ha, hu, i, hraw, hd⟩
  · simp [ha, hd]
  · simp [ha, hu, hd]
  · simp [ha, hu, hd, hraw]

/-- Settles O5: the decoder is run on each word. -/
theorem printedWordsDecode : Obligations.PrintedWordsDecode := by
  unfold Obligations.PrintedWordsDecode
  decide

end Sys2Proof.Proofs
end

section
/-! PROOFS. The table of R85: each command's row, and that a row's mnemonic and its match each name the row. -/

namespace Sys2Proof

open Sys2Proof.Machine Sys2Proof.Spec

/-- R85: mnemonic, match and mask of a command. -/
def Instr.row (i : Instr) : String × Word × Word := (mnemonic i, i.opcode.setWidth 32, opMask i.opcode)

theorem Instr.row_mem (i : Instr) : i.row ∈ rowsOfR85 := by
  cases i <;> simp only [Instr.row, mnemonic, Instr.opcode] <;> decide

theorem exists_row_eq {row : String × Word × Word} (h : row ∈ rowsOfR85) : ∃ i : Instr, i.row = row := by
  simp only [rowsOfR85, List.cons_append, List.nil_append, List.mem_cons, List.not_mem_nil, or_false] at h
  rcases h with rfl | rfl | rfl | rfl | rfl | rfl | rfl | rfl | rfl | rfl | rfl | rfl | rfl | rfl
  · exact ⟨.nop, by decide⟩
  · exact ⟨.crcinit, by decide⟩
  · exact ⟨.crcfold 0, by decide⟩
  · exact ⟨.crcfin 0, by decide⟩
  · exact ⟨.crcstrm 0, by decide⟩
  · exact ⟨.padd 0 0 0, by decide⟩
  · exact ⟨.mulmod 0 0 0, by decide⟩
  · exact ⟨.powmod 0 0 0, by decide⟩
  · exact ⟨.divrem 0 0 0 0, by decide⟩
  · exact ⟨.recip 0 0, by decide⟩
  · exact ⟨.degree 0 0, by decide⟩
  · exact ⟨.rev32 0 0, by decide⟩
  · exact ⟨.delta 0 0 0 0, by decide⟩
  · exact ⟨.derive 0 0 0 0, by decide⟩

theorem rows_distinct : ∀ a ∈ rowsOfR85, ∀ b ∈ rowsOfR85, a.1 = b.1 ∨ a.2.1 = b.2.1 → a = b := by decide

theorem Instr.row_eq_of_mnemonic {i j : Instr} (h : mnemonic i = mnemonic j) : i.row = j.row :=
  rows_distinct _ i.row_mem _ j.row_mem (.inl h)

theorem Instr.row_eq_of_opcode {i j : Instr} (h : i.opcode = j.opcode) : i.row = j.row :=
  rows_distinct _ i.row_mem _ j.row_mem (.inr (congrArg (BitVec.setWidth 32) h))

/-- R85: the word spells a command of the row. -/
theorem Instr.matches_row_iff {i : Instr} {w : Word} :
    w &&& i.row.2.2 = i.row.2.1 ↔ opField w = i.opcode ∧ (RawCmd.ofWord w).unusedZero = true :=
  and_opMask_eq_iff

theorem opField_of_decode {w : Word} {i : Instr} (h : decode w = .ok i) : opField w = i.opcode :=
  (congrArg RawCmd.op (decode_eq_ok_iff.mp h)).trans i.raw_op

theorem assigned_of_opcode {w : Word} {i : Instr} (h : opField w = i.opcode) : (RawCmd.ofWord w).assigned = true := by
  have hraw : i.raw.assigned = true := (Bool.and_eq_true_iff.mp i.wellFormed_eq_true).1
  rwa [RawCmd.assigned, i.raw_op, ← h] at hraw

theorem Instr.matches_row_iff_decode (i : Instr) (w : Word) :
    w &&& i.row.2.2 = i.row.2.1 ↔ ∃ j, decode w = .ok j ∧ mnemonic j = mnemonic i := by
  constructor
  · intro h
    obtain ⟨hop, hunused⟩ := Instr.matches_row_iff.mp h
    obtain ⟨j, -, hd⟩ := exists_decode_eq_ok (Bool.and_eq_true_iff.mpr ⟨assigned_of_opcode hop, hunused⟩)
    exact ⟨j, hd, congrArg Prod.fst (Instr.row_eq_of_opcode ((opField_of_decode hd).symm.trans hop))⟩
  · rintro ⟨j, hd, hmnemonic⟩
    have hunused : (RawCmd.ofWord w).unusedZero = true := decode_eq_ok_iff.mp hd ▸ j.unusedZero_raw
    rw [← Instr.row_eq_of_mnemonic hmnemonic]
    exact Instr.matches_row_iff.mpr ⟨opField_of_decode hd, hunused⟩

end Sys2Proof

namespace Sys2Proof.Proofs

open Sys2Proof.Machine Sys2Proof.Spec

/-- Settles O4: every row of the table is the row of a command, whose mask and match ask for the fields the decoder asks
for; a word has one opcode, and no two rows share one. -/
theorem maskAndMatchSpellCommand : Obligations.MaskAndMatchSpellCommand := by
  unfold Obligations.MaskAndMatchSpellCommand
  refine ⟨fun row hrow w => ?_, fun w a ha b hb hwa hwb => ?_, fun i => ⟨i.row, i.row_mem, rfl⟩⟩
  · obtain ⟨i, rfl⟩ := exists_row_eq hrow
    exact i.matches_row_iff_decode w
  · obtain ⟨i, rfl⟩ := exists_row_eq ha
    obtain ⟨j, rfl⟩ := exists_row_eq hb
    exact Instr.row_eq_of_opcode ((Instr.matches_row_iff.mp hwa).1.symm.trans (Instr.matches_row_iff.mp hwb).1)

end Sys2Proof.Proofs
end

section
/-! PROOFS. The assembler reads back what R84's assembler form writes (R88). -/

namespace Sys2Proof.Machine

theorem parseReg_regName (r : Reg) : parseReg (regName r) = some r := by
  revert r; decide

theorem mapM_parseReg_regName (rs : List Reg) : (rs.map regName).mapM parseReg = some rs := by
  induction rs with
  | nil => rfl
  | cons r rs ih => simp [List.mapM_cons, parseReg_regName, ih]

/-- R84: mnemonic and operands name the command, no mnemonic being another's. -/
theorem parseCommand_mnemonic_operands (i : Instr) : parseCommand (mnemonic i) (operands i) = some i := by
  cases i <;> simp [parseCommand, mnemonic, operands, sameName]

end Sys2Proof.Machine

namespace Sys2Proof.Proofs

open Sys2Proof.Machine

/-- Settles O6: the operand names are read back as the operands, and with the mnemonic they name the command. -/
theorem assemblyNamesTheEncodedWord : Obligations.AssemblyNamesTheEncodedWord := by
  unfold Obligations.AssemblyNamesTheEncodedWord
  intro i
  simp only [assemble, mapM_parseReg_regName, Option.bind_some, parseCommand_mnemonic_operands, Option.map_some]

end Sys2Proof.Proofs
end

section
/-! PROOFS. What the decode check makes of the word in flight (R86, R87). -/

namespace Sys2Proof.Machine

open Sys2Proof.Spec

theorem completeCommand_of_error {w : Word} {s : State} (h : s.status.err ≠ 0) :
    completeCommand w s = .next (s.setInFlight none).skipCommand :=
  if_pos h

theorem completeCommand_of_illOpcode {w : Word} {s : State} (h : s.status.err = 0) (hd : decode w = .error .illOpcode) :
    completeCommand w s = .next ((s.setInFlight none).raise (opField w) .illOpcode) := by
  simp [completeCommand, h, hd]

theorem completeCommand_of_illReserved {w : Word} {s : State} (h : s.status.err = 0)
    (hd : decode w = .error .illReserved) :
    completeCommand w s = .next ((s.setInFlight none).raise (opField w) .illReserved) := by
  simp [completeCommand, h, hd]

/-- R87, R183: an error of a command that reads no operand. -/
theorem raise_eq_failed (s : State) (op : BitVec 8) (c : Cause) : s.raise op c = failed s [] op c := by
  simp [failed, readMark, State.raise, State.setStatus, Status.record]

end Sys2Proof.Machine

namespace Sys2Proof.Proofs

open Sys2Proof.Machine Sys2Proof.Spec

/-- Settles O8: the step completes the word, and the decoder's answer by its fields decides what becomes of it. -/
theorem wordIsSkippedRejectedOrRun : Obligations.WordIsSkippedRejectedOrRun := by
  unfold Obligations.WordIsSkippedRejectedOrRun
  refine ⟨fun s w rest hc => ?_, by decide +kernel⟩
  obtain ⟨hopcode, hreserved, -, -⟩ := decoderFollowsFieldRules w
  simp only [step_of_completes hc]
  refine ⟨fun he => ?_, fun he ha => ?_, fun he ha hu => ?_, fun he ha hu => ?_⟩
  · exact completeCommand_of_error he
  · exact (completeCommand_of_illOpcode (s := s.setInputs rest) he (hopcode.mpr ha)).trans
      (congrArg _ (raise_eq_failed ..))
  · exact (completeCommand_of_illReserved (s := s.setInputs rest) he (hreserved.mpr ⟨ha, hu⟩)).trans
      (congrArg _ (raise_eq_failed ..))
  · obtain ⟨i, hraw, hd⟩ := exists_decode_eq_ok (Bool.and_eq_true_iff.mpr ⟨ha, hu⟩)
    exact ⟨i, hraw, completeCommand_of_decode he hd⟩

end Sys2Proof.Proofs
end

section
/-! PROOFS. The CRC engine's commands (R103 to R106, R109): the one word that spells each, and the state it leaves. -/

namespace Sys2Proof.Machine

open Sys2Proof.Spec

/-- R85: no two words spell one command. -/
theorem spelledOnlyBy_encode (i : Instr) : SpelledOnlyBy i (encode i) := fun v => by
  rw [decode_eq_ok_iff, ← RawCmd.ofWord_encode i, RawCmd.ofWord_injective.eq_iff]

theorem encode_crcfold (rs1 : Reg) : encode (.crcfold rs1) = 0x00000011 ||| field rs1 11 := by
  simp [encode, enc, Instr.opcode, field]

theorem encode_crcfin (rd : Reg) : encode (.crcfin rd) = 0x00000012 ||| field rd 8 := by
  simp [encode, enc, Instr.opcode, field]

theorem encode_crcstrm (rd : Reg) : encode (.crcstrm rd) = 0x00000013 ||| field rd 8 := by
  simp [encode, enc, Instr.opcode, field]

/-- The record of a command that reads no operand and writes one. -/
theorem writeP_eq_wroteP (s : State) (rd : Reg) (v : DWord) : s.writeP rd v = wroteP s [] rd v :=
  congrArg (State.writeP · rd v) s.noteReads_nil.symm

theorem exec_crcfin (rd : Reg) (s : State) :
    exec (.crcfin rd) s = .next (wroteP s [] rd ((s.crcreg ^^^ 0xFFFFFFFF).setWidth 64)) :=
  congrArg _ (writeP_eq_wroteP s rd _)

/-! CRCSTRM. -/

theorem crcstrmCheck_of_absent {s : State} (h : s.scap.present = false) : crcstrmCheck s = .error .preNull := by
  simp [crcstrmCheck, h]

section
variable {s : State} (hpresent : s.scap.present = true)
include hpresent

theorem crcstrmCheck_of_long (h : s.cfg.streamCap < s.slen.toNat) : crcstrmCheck s = .error .ioRange := by
  simp [crcstrmCheck, hpresent, h]

theorem crcstrmCheck_of_unreadable (hfits : s.slen.toNat ≤ s.cfg.streamCap) (h : s.scap.read = false) :
    crcstrmCheck s = .error .ioNoread := by
  simp [crcstrmCheck, hpresent, hfits.not_gt, h]

theorem crcstrmCheck_of_readable (hfits : s.slen.toNat ≤ s.cfg.streamCap) (h : s.scap.read = true) :
    crcstrmCheck s = .ok () := by
  simp [crcstrmCheck, hpresent, hfits.not_gt, h]
end

/-- R106: the bytes CRCSTRM reads, from CURSOR to the end of the stream; none when CURSOR is at or past it. -/
def State.crcstrmBytes (s : State) : List Byte := s.streamBytes s.cursor.toNat (s.slen.toNat - s.cursor.toNat)

/-- R106: the state CRCSTRM leaves when every byte it reads is there. -/
def State.crcstrmDone (s : State) (rd : Reg) : State :=
  { s with
    crcreg := crcReg s.crcstrmBytes
    p := s.p.set rd.val ((crc32 s.crcstrmBytes).setWidth 64) rd.isLt
    written := s.written.set rd.val true rd.isLt
    cursor := if s.cursor.toNat < s.slen.toNat then s.slen else s.cursor }

theorem exec_crcstrm_of_check {rd : Reg} {s : State} {c : Cause} (h : crcstrmCheck s = .error c) :
    exec (.crcstrm rd) s = .next (failed s [] 0x13 c) := by
  rw [← raise_eq_failed]
  simp only [exec, execCrcstrm, h]
  rfl

theorem exec_crcstrm_of_fault {rd : Reg} {s : State} (h : crcstrmCheck s = .ok ())
    (hfault : ∃ a, s.cursor.toNat ≤ a ∧ a < s.slen.toNat ∧ portFault s.cfg .read a = true) :
    exec (.crcstrm rd) s = .next (failed s [] 0x13 .ioPort) := by
  obtain ⟨a, hlo, hhi, hport⟩ := hfault
  have hnone : s.foldStream (s.slen.toNat - s.cursor.toNat) s.cursor.toNat crcInit = none :=
    (s.foldStream_eq_none _ _ _).2 ⟨a, hlo, by omega, hport⟩
  rw [← raise_eq_failed]
  simp only [exec, execCrcstrm, h, hnone]
  rfl

theorem exec_crcstrm_of_noFault {rd : Reg} {s : State} (h : crcstrmCheck s = .ok ())
    (hport : ∀ a, s.cursor.toNat ≤ a → a < s.slen.toNat → portFault s.cfg .read a = false) :
    exec (.crcstrm rd) s = .next (s.crcstrmDone rd) := by
  have hsome : s.foldStream (s.slen.toNat - s.cursor.toNat) s.cursor.toNat crcInit = some (crcReg s.crcstrmBytes) :=
    s.foldStream_of_no_fault _ _ _ fun a hlo hhi => hport a hlo (by omega)
  simp only [exec, execCrcstrm, h, hsome, BitVec.lt_def]
  rfl

/-- R106: with CURSOR at or past the end there is no byte to read. -/
theorem State.crcstrmDone_of_empty {s : State} (h : s.slen.toNat ≤ s.cursor.toNat) (rd : Reg) :
    s.crcstrmDone rd = wroteP { s with crcreg := crcInit } [] rd 0 := by
  have hbytes : s.crcstrmBytes = [] := by rw [State.crcstrmBytes, Nat.sub_eq_zero_of_le h]; rfl
  rw [← writeP_eq_wroteP, State.crcstrmDone, hbytes, if_neg h.not_gt]
  rfl

/-- A register write is told from the state it leaves. -/
theorem State.writeP_readP_writeP (s : State) (r : Reg) (v : DWord) :
    s.writeP r ((s.writeP r v).readP r) = s.writeP r v := by
  rw [s.readP_writeP_self]

end Sys2Proof.Machine

namespace Sys2Proof.Proofs

open Sys2Proof.Machine Sys2Proof.Spec

/-- Settles O28: the word is CRCINIT's encoding, and the record is its meaning. -/
theorem crcinitResult : Obligations.CrcinitResult := by
  unfold Obligations.CrcinitResult
  exact ⟨spelledOnlyBy_encode .crcinit, fun _ => rfl⟩

/-- Settles O29: the word is CRCFOLD's encoding, and the record is its meaning. -/
theorem crcfoldResult : Obligations.CrcfoldResult := by
  unfold Obligations.CrcfoldResult
  exact fun rs1 => ⟨encode_crcfold rs1 ▸ spelledOnlyBy_encode _, fun _ => rfl, by decide⟩

/-- Settles O30: the word is CRCFIN's encoding; it writes one register, and the complement of all ones is 0. -/
theorem crcfinResult : Obligations.CrcfinResult := by
  unfold Obligations.CrcfinResult
  refine fun rd => ⟨encode_crcfin rd ▸ spelledOnlyBy_encode _, exec_crcfin rd, fun s => ?_⟩
  have hzero : (0xFFFFFFFF#32 ^^^ 0xFFFFFFFF#32).setWidth 64 = 0#64 := by decide
  rw [exec_crcfin]
  exact congrArg (fun v => Host.Outcome.next (wroteP _ [] rd v)) hzero

/-- Settles O31: the checks of R106 in their order, then the read of the bytes from CURSOR up, which faults or folds them
all. -/
theorem crcstrmResult : Obligations.CrcstrmResult := by
  unfold Obligations.CrcstrmResult
  refine fun rd => ⟨encode_crcstrm rd ▸ spelledOnlyBy_encode _, fun s => ⟨fun habsent => ?_, fun hpresent hlong => ?_,
    fun hpresent hfits hread => ?_, fun hpresent hfits hread hfault => ?_, fun hpresent hfits hread hport => ?_⟩⟩
  · exact exec_crcstrm_of_check (crcstrmCheck_of_absent habsent)
  · exact exec_crcstrm_of_check (crcstrmCheck_of_long hpresent hlong)
  · exact exec_crcstrm_of_check (crcstrmCheck_of_unreadable hpresent hfits hread)
  · exact exec_crcstrm_of_fault (crcstrmCheck_of_readable hpresent hfits hread) hfault
  · have hdone := exec_crcstrm_of_noFault (rd := rd) (crcstrmCheck_of_readable hpresent hfits hread) hport
    exact ⟨hdone, fun hempty => hdone.trans (congrArg _ (State.crcstrmDone_of_empty hempty rd))⟩

/-- Settles O26: the three commands' meanings name no stream state; CRCSTRM fails, or writes its three registers. -/
theorem crcCommandsLeaveTheStream : Obligations.CrcCommandsLeaveTheStream := by
  unfold Obligations.CrcCommandsLeaveTheStream
  constructor
  · rintro i s t m cur len c (rfl | ⟨rs1, rfl⟩ | ⟨rd, rfl⟩) h
    · cases h; exact ⟨rfl, rfl, rfl, rfl, rfl⟩
    · cases h; exact ⟨rfl, rfl, rfl, rfl, rfl⟩
    · cases h; exact ⟨rfl, rfl, rfl, rfl, rfl⟩
  · intro rd s t h
    rcases execCrcstrm_cases rd s with ⟨c, -, heq⟩ | ⟨r, -, -, heq⟩ <;> cases heq.symm.trans h
    · exact .inl rfl
    · refine .inr ?_
      have hwrite := (s.setCrcreg r).writeP_readP_writeP rd (wordResult (r ^^^ crcXorOut))
      exact congrArg (State.setCursor · _) hwrite.symm

end Sys2Proof.Proofs
end

section
/-! PROOFS. The table-driven engine (R101): the rounds of R100 are linear, and shift out low bits that are 0. -/

namespace Sys2Proof.Machine

theorem foldRound_xor (a b : Word) : foldRound (a ^^^ b) = foldRound a ^^^ foldRound b := by
  simp only [foldRound, BitVec.getLsbD_xor, BitVec.ushiftRight_xor_distrib]
  cases a.getLsbD 0 <;> cases b.getLsbD 0 <;> simp only [Bool.xor_false, Bool.false_xor, Bool.xor_self, if_true,
    Bool.false_eq_true, if_false]
  · ac_rfl
  · ac_rfl
  · rw [BitVec.xor_assoc, BitVec.xor_comm (b >>> 1), ← BitVec.xor_assoc refPoly, BitVec.xor_self, BitVec.zero_xor]

theorem foldRounds_xor (n : Nat) (a b : Word) : foldRounds n (a ^^^ b) = foldRounds n a ^^^ foldRounds n b := by
  induction n generalizing a b with
  | zero => rfl
  | succ n ih => rw [foldRounds, foldRound_xor, ih]; rfl

theorem foldRounds_of_low_bits_zero {n : Nat} {r : Word} (h : ∀ i < n, r.getLsbD i = false) :
    foldRounds n r = r >>> n := by
  induction n generalizing r with
  | zero => simp [foldRounds]
  | succ n ih =>
    have hround : foldRound r = r >>> 1 := if_neg (Bool.not_eq_true _ ▸ h 0 (by omega))
    rw [foldRounds, hround, ih fun i hi => ?_, ← BitVec.shiftRight_add, Nat.add_comm]
    rw [BitVec.getLsbD_ushiftRight, Nat.add_comm]
    exact h _ (by omega)

theorem setWidth_ushiftRight_eight (b : Byte) : b.setWidth 32 >>> 8 = 0#32 :=
  BitVec.eq_of_getLsbD_eq fun i hi => by simp

/-- R101: eight rounds shift the high bits out whole, and only the low eight meet the constant. -/
theorem foldRounds_eight (r : Word) : foldRounds 8 r = r >>> 8 ^^^ foldRounds 8 ((r.setWidth 8).setWidth 32) := by
  generalize hl : (r.setWidth 8).setWidth 32 = low
  have hlow : ∀ i < 8, (r ^^^ low).getLsbD i = false := fun i hi => by
    simp [← hl, hi, show i < 32 by omega]
  have hhigh : (r ^^^ low) >>> 8 = r >>> 8 := by
    rw [BitVec.ushiftRight_xor_distrib, ← hl, setWidth_ushiftRight_eight, BitVec.xor_zero]
  calc foldRounds 8 r
      = foldRounds 8 ((r ^^^ low) ^^^ low) := by rw [BitVec.xor_assoc, BitVec.xor_self, BitVec.xor_zero]
    _ = r >>> 8 ^^^ foldRounds 8 low := by rw [foldRounds_xor, foldRounds_of_low_bits_zero hlow, hhigh]

theorem fold8_eq_fold8Table (r : Word) (b : Byte) : fold8 r b = fold8Table r b := by
  rw [fold8Table, crcTable, fold8, fold8, BitVec.ofNat_eq_ofNat, BitVec.zero_xor, foldRounds_eight,
    BitVec.ushiftRight_xor_distrib, setWidth_ushiftRight_eight, BitVec.xor_zero]

theorem crcTable_eq_tableOfR101 :
    ((List.range 256).map fun n => crcTable (BitVec.ofNat 8 n)) = Spec.tableOfR101 := by decide +kernel

end Sys2Proof.Machine

namespace Sys2Proof.Proofs

open Sys2Proof.Machine Sys2Proof.Spec

/-- Settles O32: the engines agree by fold8_eq_fold8Table; the printed entries and checksums are computed. -/
theorem tableEngineAgrees : Obligations.TableEngineAgrees := by
  unfold Obligations.TableEngineAgrees
  exact ⟨crcTable_eq_tableOfR101, fold8_eq_fold8Table, by decide, by decide +kernel, by decide +kernel⟩

end Sys2Proof.Proofs
end

section
/-! PROOFS. The remainder of R11 is linear, and may be taken before a product with a power of x. -/

namespace Sys2Proof.Machine

theorem pmod_eq_of_eq_clmul_xor {a m q r : Nat} (hm : m ≠ 0) (ha : a = clmul q m ^^^ r) (hr : r < 2 ^ m.log2) :
    pmod a m = r :=
  ((eq_pdiv_and_eq_pmod_iff hm).1 ⟨ha, (deg_lt_deg_iff hm).2 hr⟩).2.symm

theorem pmod_of_lt {a m : Nat} (hm : m ≠ 0) (h : a < 2 ^ m.log2) : pmod a m = a :=
  pmod_eq_of_eq_clmul_xor (q := 0) hm (by simp) h

theorem pmod_xor (a b : Nat) {m : Nat} (hm : m ≠ 0) : pmod (a ^^^ b) m = pmod a m ^^^ pmod b m := by
  refine pmod_eq_of_eq_clmul_xor (q := pdiv a m ^^^ pdiv b m) hm ?_ (Nat.xor_lt_two_pow (pmod_lt a hm) (pmod_lt b hm))
  calc a ^^^ b
      = (clmul (pdiv a m) m ^^^ pmod a m) ^^^ (clmul (pdiv b m) m ^^^ pmod b m) := by
        rw [clmul_pdiv_xor_pmod a hm, clmul_pdiv_xor_pmod b hm]
    _ = _ := by rw [clmul_xor_left]; ac_rfl

theorem pmod_clmul_self (q : Nat) {m : Nat} (hm : m ≠ 0) : pmod (clmul q m) m = 0 :=
  pmod_eq_of_eq_clmul_xor hm (Nat.xor_zero _).symm (Nat.two_pow_pos _)

theorem clmulTo_shiftLeft_left (a b k n : Nat) : clmulTo (a <<< k) b n = clmulTo a b n <<< k := by
  induction n with
  | zero => simp [clmulTo]
  | succ n ih =>
    rw [clmulTo, ih, clmulTo, shiftLeft_xor_left]
    split
    · rw [← Nat.shiftLeft_add, ← Nat.shiftLeft_add, Nat.add_comm]
    · simp

theorem clmul_shiftLeft_left (a b k : Nat) : clmul (a <<< k) b = clmul a b <<< k := clmulTo_shiftLeft_left ..

/-- A remainder may be taken before a product with a power of x. -/
theorem pmod_pmod_shiftLeft (a k : Nat) {m : Nat} (hm : m ≠ 0) : pmod (pmod a m <<< k) m = pmod (a <<< k) m := by
  conv_rhs => rw [← clmul_pdiv_xor_pmod a hm, shiftLeft_xor_left, ← clmul_shiftLeft_left, pmod_xor _ _ hm,
    pmod_clmul_self _ hm, Nat.zero_xor]

theorem one_clmul (a : Nat) : clmul 1 a = a := two_pow_clmul 0 a

/-- A polynomial of degree at most the divisor's takes at most one subtraction. -/
theorem pmod_of_lt_two_pow_succ {a m : Nat} (hm : m ≠ 0) (ha : a < 2 ^ (m.log2 + 1)) :
    pmod a m = if a.testBit m.log2 then a ^^^ m else a := by
  split
  next hbit =>
    have hlt : a ^^^ m < 2 ^ m.log2 := by
      simpa using xor_shiftLeft_log2_lt (n := 0) hm (by simpa using ha) (by simpa using hbit)
    have hsum : a = clmul 1 m ^^^ (a ^^^ m) := by
      rw [one_clmul, Nat.xor_comm a, ← Nat.xor_assoc, Nat.xor_self, Nat.zero_xor]
    exact pmod_eq_of_eq_clmul_xor hm hsum hlt
  next hbit => exact pmod_of_lt hm (lt_two_pow_of_testBit_false ha (by simpa using hbit))

end Sys2Proof.Machine
end

section
/-! PROOFS. The checksum as a remainder (R108): on the reversed register a round of R100 is a product with x modulo G, and a
byte more shifts the message polynomial by eight places. -/

namespace Sys2Proof.Machine

/-! The rounds. -/

theorem rev32_ushiftRight_one (r : Word) : rev32 (r >>> 1) = rev32 r <<< 1 := by
  refine BitVec.eq_of_getLsbD_eq fun i hi => ?_
  rw [getLsbD_rev32 _ i hi, BitVec.getLsbD_ushiftRight, BitVec.getLsbD_shiftLeft]
  cases i with
  | zero => simp
  | succ i => simp [getLsbD_rev32 r i (by omega), hi, show 1 + (30 - i) = 31 - i by omega]

/-- R2, R107: the reflected constant is the generator less its leading term. -/
theorem toNat_rev32_refPoly : (rev32 refPoly).toNat = generator % 2 ^ 32 := by decide

/-- R100 on the reversed register: a product with x, less G when it has degree 32. -/
theorem toNat_rev32_foldRound (r : Word) :
    (rev32 (foldRound r)).toNat = pmod ((rev32 r).toNat <<< 1) generator := by
  have hdouble : (rev32 r).toNat <<< 1 < 2 ^ (generator.log2 + 1) := by
    rw [log2_generator, Nat.shiftLeft_eq]; omega
  have hbit : ((rev32 r).toNat <<< 1).testBit generator.log2 = r.getLsbD 0 := by
    rw [log2_generator, Nat.testBit_shiftLeft, BitVec.testBit_toNat, getLsbD_rev32 _ _ (by decide)]; rfl
  have hlt := pmod_generator_reduced ((rev32 r).toNat <<< 1)
  rw [pmod_of_lt_two_pow_succ generator_ne_zero hdouble, hbit] at hlt ⊢
  rw [← Nat.mod_eq_of_lt hlt, foldRound]
  split
  · rw [rev32_xor, BitVec.toNat_xor, rev32_ushiftRight_one, toNat_rev32_refPoly, BitVec.toNat_shiftLeft,
      Nat.xor_mod_two_pow]
  · rw [rev32_ushiftRight_one, BitVec.toNat_shiftLeft]

theorem toNat_rev32_foldRounds (n : Nat) (r : Word) :
    (rev32 (foldRounds n r)).toNat = pmod ((rev32 r).toNat <<< n) generator := by
  induction n generalizing r with
  | zero => exact (pmod_of_lt generator_ne_zero (by rw [log2_generator]; exact (rev32 r).isLt)).symm
  | succ n ih =>
    rw [foldRounds, ih, toNat_rev32_foldRound, pmod_pmod_shiftLeft _ _ generator_ne_zero, ← Nat.shiftLeft_add,
      Nat.add_comm]

theorem testBit_toNat_reverse (b : Byte) (i : Nat) :
    b.reverse.toNat.testBit i = (decide (i < 8) && b.getLsbD (7 - i)) := by
  rw [BitVec.testBit_toNat, BitVec.getLsbD_reverse, BitVec.getMsbD]

theorem toNat_rev32_setWidth (b : Byte) : (rev32 (b.setWidth 32)).toNat = b.reverse.toNat <<< 24 := by
  refine Nat.eq_of_testBit_eq fun i => ?_
  rw [BitVec.testBit_toNat, Nat.testBit_shiftLeft, testBit_toNat_reverse]
  rcases Nat.lt_or_ge i 24 with hlow | hhigh
  · rw [getLsbD_rev32 _ i (by omega)]
    simp [hlow.not_ge, BitVec.getLsbD_of_ge b (31 - i) (by omega)]
  · rcases Nat.lt_or_ge i 32 with hi | hi
    · rw [getLsbD_rev32 _ i hi]
      simp [hhigh, show i - 24 < 8 by omega, show 7 - (i - 24) = 31 - i by omega, show 31 - i < 32 by omega]
    · simp [BitVec.getLsbD_of_ge _ i hi, show ¬ i - 24 < 8 by omega]

theorem toNat_rev32_fold8 (r : Word) (b : Byte) :
    (rev32 (fold8 r b)).toNat = pmod ((rev32 r).toNat <<< 8 ^^^ b.reverse.toNat <<< 32) generator := by
  rw [fold8, toNat_rev32_foldRounds, rev32_xor, BitVec.toNat_xor, toNat_rev32_setWidth, shiftLeft_xor_left,
    ← Nat.shiftLeft_add]

/-! The message polynomial. -/

theorem testBit_messagePolyTo (m : List Byte) {L n : Nat} (hn : n ≤ L) (i : Nat) :
    (messagePolyTo m L n).testBit i = (decide (L - n ≤ i ∧ i < L) && messageBit m (L - 1 - i)) := by
  induction n with
  | zero => simp [messagePolyTo]
  | succ n ih =>
    have hterm : (if messageBit m n then 1 <<< (L - 1 - n) else 0).testBit i =
        (decide (L - 1 - n = i) && messageBit m n) := by
      split
      · simp [Nat.one_shiftLeft, Nat.testBit_two_pow, *]
      · simp [*]
    rw [messagePolyTo, Nat.testBit_xor, ih (by omega), hterm]
    by_cases hi : L - 1 - n = i
    · simp [hi, show ¬ L - n ≤ i by omega, show L - (n + 1) ≤ i ∧ i < L by omega, show L - 1 - i = n by omega]
    · simp only [hi, decide_false, Bool.false_and, Bool.xor_false]
      congr 1
      exact decide_eq_decide.2 (by omega)

theorem testBit_messagePoly (m : List Byte) (i : Nat) :
    (messagePoly m).testBit i = (decide (i < 8 * m.length) && messageBit m (8 * m.length - 1 - i)) := by
  rw [messagePoly, testBit_messagePolyTo m le_rfl]
  simp

theorem messageBit_append_left {m : List Byte} (l : List Byte) {t : Nat} (h : t < 8 * m.length) :
    messageBit (m ++ l) t = messageBit m t := by
  rw [messageBit, messageBit, List.getD_append _ _ _ _ (by omega)]

theorem messageBit_append_right (m l : List Byte) (k : Nat) :
    messageBit (m ++ l) (8 * m.length + k) = messageBit l k := by
  rw [messageBit, messageBit, Nat.mul_add_div (by decide), Nat.mul_add_mod, List.getD_append_right _ _ _ _ (by omega),
    Nat.add_sub_cancel_left]

theorem messageBit_singleton (b : Byte) {k : Nat} (h : k < 8) : messageBit [b] k = b.getLsbD k := by
  rw [messageBit, Nat.div_eq_of_lt h, Nat.mod_eq_of_lt h]; rfl

/-- R108: the last byte's bits are the eight lowest coefficients, its first bit the highest of them. -/
theorem messagePoly_append_singleton (m : List Byte) (b : Byte) :
    messagePoly (m ++ [b]) = messagePoly m <<< 8 ^^^ b.reverse.toNat := by
  refine Nat.eq_of_testBit_eq fun i => ?_
  rw [testBit_messagePoly, Nat.testBit_xor, Nat.testBit_shiftLeft, testBit_messagePoly, testBit_toNat_reverse,
    List.length_append, List.length_singleton]
  rcases Nat.lt_or_ge i 8 with hlast | hfront
  · rw [show 8 * (m.length + 1) - 1 - i = 8 * m.length + (7 - i) by omega, messageBit_append_right,
      messageBit_singleton b (by omega)]
    simp [hlast, hlast.not_ge, show i < 8 * (m.length + 1) by omega]
  · rcases Nat.lt_or_ge i (8 * (m.length + 1)) with hin | hout
    · rw [messageBit_append_left [b] (by omega), show 8 * (m.length + 1) - 1 - i = 8 * m.length - 1 - (i - 8) by omega]
      simp [hin, hfront, hfront.not_gt, show i - 8 < 8 * m.length by omega]
    · simp [hout.not_gt, hfront.not_gt, show ¬ i - 8 < 8 * m.length by omega]

/-! R108. -/

/-- A byte more shifts the message and the register in front of it by eight places. -/
theorem shiftLeft_message_and_register (M c r n : Nat) :
    (M <<< 32 ^^^ r <<< (8 * n)) <<< 8 ^^^ c <<< 32 = (M <<< 8 ^^^ c) <<< 32 ^^^ r <<< (8 * (n + 1)) := by
  simp only [shiftLeft_xor_left, ← Nat.shiftLeft_add, Nat.mul_add, Nat.xor_right_comm]

/-- R108, before the final complement: the register at the start is a polynomial in front of the message's. -/
theorem toNat_rev32_foldl_fold8 (m : List Byte) (r : Word) :
    (rev32 (m.foldl fold8 r)).toNat =
      pmod (messagePoly m <<< 32 ^^^ (rev32 r).toNat <<< (8 * m.length)) generator := by
  induction m using List.reverseRecOn with
  | nil => simpa [messagePoly, messagePolyTo, foldRounds] using toNat_rev32_foldRounds 0 r
  | append_singleton m b ih =>
    rw [List.foldl_append, List.foldl_cons, List.foldl_nil, toNat_rev32_fold8, ih, pmod_xor _ _ generator_ne_zero,
      pmod_pmod_shiftLeft _ _ generator_ne_zero, ← pmod_xor _ _ generator_ne_zero,
      shiftLeft_message_and_register, messagePoly_append_singleton, List.length_append, List.length_singleton]

theorem xor_xor_xor_same (a b c : Nat) : (a ^^^ c) ^^^ (b ^^^ c) = a ^^^ b := by
  rw [Nat.xor_comm b, Nat.xor_assoc, ← Nat.xor_assoc c, Nat.xor_self, Nat.zero_xor]

theorem toNat_rev32_crc32 (m : List Byte) :
    (rev32 (crc32 m)).toNat =
      pmod (clmul (messagePoly m) (2 ^ 32) ^^^ clmul 0xFFFFFFFF (2 ^ (8 * m.length))) generator ^^^ 0xFFFFFFFF := by
  have hinit : (rev32 crcInit).toNat = 0xFFFFFFFF := by decide +kernel
  have hxorOut : (rev32 crcXorOut).toNat = 0xFFFFFFFF := by decide +kernel
  rw [crc32, rev32_xor, BitVec.toNat_xor, crcReg, toNat_rev32_foldl_fold8, hinit, hxorOut, clmul_two_pow,
    clmul_two_pow]

end Sys2Proof.Machine

namespace Sys2Proof.Proofs

open Sys2Proof.Machine Sys2Proof.Spec

/-- Settles O33: the remainder by induction on the sequence, a byte at its end; the constants of two sequences of one length
cancel. -/
theorem checksumIsPolynomialRemainder : Obligations.ChecksumIsPolynomialRemainder := by
  unfold Obligations.ChecksumIsPolynomialRemainder
  refine ⟨toNat_rev32_crc32, fun m m' hlength => ?_⟩
  rw [BitVec.toNat_xor, toNat_rev32_crc32, toNat_rev32_crc32, hlength, xor_xor_xor_same,
    ← pmod_xor _ _ generator_ne_zero, xor_xor_xor_same, clmul_xor_left]

end Sys2Proof.Proofs
end

section
/-! PROOFS. The GF(2) commands (R120 to R130): the one word that spells each, the state each leaves, and what all of them leave
alone. -/

namespace Sys2Proof.Machine

open Sys2Proof.Spec

theorem encode_padd (rd rs1 rs2 : Reg) :
    encode (.padd rd rs1 rs2) = 0x00000020 ||| field rd 8 ||| field rs1 11 ||| field rs2 14 := by
  simp [encode, enc, Instr.opcode, field]

theorem encode_mulmod (rd rs1 rs2 : Reg) :
    encode (.mulmod rd rs1 rs2) = 0x00000021 ||| field rd 8 ||| field rs1 11 ||| field rs2 14 := by
  simp [encode, enc, Instr.opcode, field]

theorem encode_powmod (rd rs1 rs2 : Reg) :
    encode (.powmod rd rs1 rs2) = 0x00000022 ||| field rd 8 ||| field rs1 11 ||| field rs2 14 := by
  simp [encode, enc, Instr.opcode, field]

theorem encode_divrem (rd rx rs1 rs2 : Reg) :
    encode (.divrem rd rx rs1 rs2) = 0x00000023 ||| field rd 8 ||| field rs1 11 ||| field rs2 14 ||| field rx 17 := by
  simp [encode, enc, Instr.opcode, field]

theorem encode_recip (rd rs1 : Reg) : encode (.recip rd rs1) = 0x00000024 ||| field rd 8 ||| field rs1 11 := by
  simp [encode, enc, Instr.opcode, field]

theorem encode_degree (rd rs1 : Reg) : encode (.degree rd rs1) = 0x00000025 ||| field rd 8 ||| field rs1 11 := by
  simp [encode, enc, Instr.opcode, field]

theorem encode_rev32 (rd rs1 : Reg) : encode (.rev32 rd rs1) = 0x00000026 ||| field rd 8 ||| field rs1 11 := by
  simp [encode, enc, Instr.opcode, field]

/-! What each does. -/

theorem exec_padd (rd rs1 rs2 : Reg) (s : State) :
    exec (.padd rd rs1 rs2) s = .next (wroteP s [rs1, rs2] rd (s.p[rs1.val] ^^^ s.p[rs2.val])) := rfl

theorem exec_degree (rd rs1 : Reg) (s : State) :
    exec (.degree rd rs1) s = .next (wroteP s [rs1] rd (signedResult (deg s.p[rs1.val].toNat))) := rfl

theorem exec_divrem_of_zero {rs2 : Reg} {s : State} (rd rx rs1 : Reg) (h : s.p[rs2.val] = 0) :
    exec (.divrem rd rx rs1 rs2) s = .next (failed s [rs1, rs2] 0x23 .ariDiv0) := by
  rcases execDivrem_cases rd rx rs1 rs2 s with ⟨-, heq⟩ | ⟨hne, -⟩
  · exact heq
  · exact absurd (congrArg BitVec.toNat h) hne

theorem exec_divrem_of_ne_zero {rs2 : Reg} {s : State} (rd rx rs1 : Reg) (h : s.p[rs2.val] ≠ 0) :
    exec (.divrem rd rx rs1 rs2) s = .next
      { s with
        p := (s.p.set rd.val (BitVec.ofNat 64 (pdiv s.p[rs1.val].toNat s.p[rs2.val].toNat)) rd.isLt).set rx.val
          (BitVec.ofNat 64 (pmod s.p[rs1.val].toNat s.p[rs2.val].toNat)) rx.isLt
        written := (s.written.set rd.val true rd.isLt).set rx.val true rx.isLt
        uninitRead := readMark s [rs1, rs2] } := by
  rcases execDivrem_cases rd rx rs1 rs2 s with ⟨hzero, -⟩ | ⟨-, heq⟩
  · exact absurd (BitVec.eq_of_toNat_eq (y := 0) hzero) h
  · exact heq

theorem exec_recip_of_none {rs1 : Reg} {s : State} (rd : Reg) (h : recip s.p[rs1.val].toNat = none) :
    exec (.recip rd rs1) s = .next (failed s [rs1] 0x24 .ariNorecip) := by
  rcases execRecip_cases rd rs1 s with ⟨-, heq⟩ | ⟨v, hv, -⟩
  · exact heq
  · cases hv.symm.trans h

theorem exec_recip_of_some {rs1 : Reg} {s : State} {v : Nat} (rd : Reg) (h : recip s.p[rs1.val].toNat = some v) :
    exec (.recip rd rs1) s = .next (wroteP s [rs1] rd (BitVec.ofNat 64 v)) := by
  rcases execRecip_cases rd rs1 s with ⟨hnone, -⟩ | ⟨u, hu, heq⟩
  · cases hnone.symm.trans h
  · cases hu.symm.trans h; exact heq

/-! R120. -/

/-- R120: what a GF(2) command may do once its operands are read. -/
inductive Gf2Effect (i : Instr) (s : State) : State → Prop
  /-- It writes operand registers. -/
  | writes (p : Vector DWord 8) (written : Vector Bool 8) :
      Gf2Effect i s { s.noteReads i.sources with p := p, written := written }
  /-- R126: a DIVREM has divisor 0. -/
  | dividesByZero (hi : ∃ rd rx rs1 rs2, i = .divrem rd rx rs1 rs2) :
      Gf2Effect i s ((s.noteReads i.sources).raise i.opcode .ariDiv0)
  /-- R128: the operand of a RECIP has no inverse. -/
  | noInverse (hi : ∃ rd rs1, i = .recip rd rs1) :
      Gf2Effect i s ((s.noteReads i.sources).raise i.opcode .ariNorecip)

theorem exec_gf2Effect {i : Instr} {s t : State} (hi : isGf2 i = true) (h : exec i s = .next t) : Gf2Effect i s t := by
  cases i with
  | padd rd rs1 rs2 => cases h; exact .writes ..
  | mulmod rd rs1 rs2 => cases h; exact .writes ..
  | powmod rd rs1 rs2 => cases h; exact .writes ..
  | divrem rd rx rs1 rs2 =>
    rcases execDivrem_cases rd rx rs1 rs2 s with ⟨-, heq⟩ | ⟨-, heq⟩ <;> cases heq.symm.trans h
    · exact .dividesByZero ⟨rd, rx, rs1, rs2, rfl⟩
    · exact .writes ..
  | recip rd rs1 =>
    rcases execRecip_cases rd rs1 s with ⟨-, heq⟩ | ⟨v, -, heq⟩ <;> cases heq.symm.trans h
    · exact .noInverse ⟨rd, rs1, rfl⟩
    · exact .writes ..
  | degree rd rs1 => cases h; exact .writes ..
  | rev32 rd rs1 => cases h; exact .writes ..
  | _ => cases hi

/-- R120: no meaning reads CRCREG or the stream state. -/
theorem exec_withStreamState {i : Instr} {s t : State} (hi : isGf2 i = true) (h : exec i s = .next t) (r : Word)
    (cur len : DWord) (c : Scap) (m : Memory) :
    exec i { s with crcreg := r, cursor := cur, slen := len, scap := c, stream := m } =
      .next { t with crcreg := r, cursor := cur, slen := len, scap := c, stream := m } := by
  cases i with
  | padd rd rs1 rs2 => cases h; rfl
  | mulmod rd rs1 rs2 => cases h; rfl
  | powmod rd rs1 rs2 => cases h; rfl
  | divrem rd rx rs1 rs2 =>
    by_cases hzero : s.p[rs2.val] = 0
    · cases (exec_divrem_of_zero rd rx rs1 hzero).symm.trans h
      exact exec_divrem_of_zero rd rx rs1 hzero
    · cases (exec_divrem_of_ne_zero rd rx rs1 hzero).symm.trans h
      exact exec_divrem_of_ne_zero rd rx rs1 hzero
  | recip rd rs1 =>
    cases hrecip : recip s.p[rs1.val].toNat with
    | none =>
      cases (exec_recip_of_none rd hrecip).symm.trans h
      exact exec_recip_of_none rd hrecip
    | some v =>
      cases (exec_recip_of_some rd hrecip).symm.trans h
      exact exec_recip_of_some rd hrecip
  | degree rd rs1 => cases h; rfl
  | rev32 rd rs1 => cases h; rfl
  | _ => cases hi

/-! The highest set bit (R127). -/

theorem toNat_ne_zero {v : DWord} (h : v ≠ 0) : v.toNat ≠ 0 := fun hzero => h (BitVec.eq_of_toNat_eq (y := 0) hzero)

theorem signedResult_deg {x : Nat} (h : x ≠ 0) : signedResult (deg x) = BitVec.ofNat 64 x.log2 := by
  rw [signedResult, deg, if_neg h, BitVec.ofInt_natCast]

/-- R127: the highest set bit of a register. -/
theorem log2_toNat_highest_bit {v : DWord} (h : v ≠ 0) : v.toNat.log2 < 64 ∧ v.getLsbD v.toNat.log2 = true ∧
    ∀ j, v.toNat.log2 < j → v.getLsbD j = false := by
  have hne := toNat_ne_zero h
  refine ⟨(Nat.log2_lt hne).2 v.isLt, ?_, fun j hj => ?_⟩
  · rw [← BitVec.testBit_toNat, Nat.testBit_log2 hne]
  · rw [← BitVec.testBit_toNat]
    exact Nat.testBit_lt_two_pow (Nat.lt_log2_self.trans_le (Nat.pow_le_pow_right (by decide) hj))

end Sys2Proof.Machine

namespace Sys2Proof.Proofs

open Sys2Proof.Machine Sys2Proof.Spec

/-- Settles O35: the word is PADD's encoding, and a register's sum with itself is 0. -/
theorem paddResult : Obligations.PaddResult := by
  unfold Obligations.PaddResult
  refine fun rd rs1 rs2 => ⟨encode_padd rd rs1 rs2 ▸ spelledOnlyBy_encode _, exec_padd rd rs1 rs2, fun s => ?_⟩
  exact congrArg (fun v => Host.Outcome.next (wroteP s [rs1, rs1] rd v)) BitVec.xor_self

/-- Settles O40: the word is DEGREE's encoding; the degree of a nonzero register is the place of its highest set bit. -/
theorem degreeResult : Obligations.DegreeResult := by
  unfold Obligations.DegreeResult
  refine fun rd rs1 => ⟨encode_degree rd rs1 ▸ spelledOnlyBy_encode _, fun s => ⟨fun hzero => ?_, fun hne => ?_⟩⟩
  · rw [exec_degree, hzero]; rfl
  · obtain ⟨hlt, htop, habove⟩ := log2_toNat_highest_bit hne
    refine ⟨s.p[rs1.val].toNat.log2, hlt, htop, habove, ?_⟩
    rw [exec_degree, signedResult_deg (toNat_ne_zero hne)]

/-- Settles O41: the word is REV32's encoding, and the value written is rev32 of the low half, which has the bits reversed. -/
theorem rev32Result : Obligations.Rev32Result := by
  unfold Obligations.Rev32Result
  refine ⟨fun rd rs1 => ⟨encode_rev32 rd rs1 ▸ spelledOnlyBy_encode _, fun s => ?_⟩, by decide +kernel⟩
  refine ⟨rev32 (s.p[rs1.val].setWidth 32), fun i hi => ?_, rev32_rev32 _, rfl⟩
  rw [getLsbD_rev32 _ i hi]
  simp [show 31 - i < 32 by omega]

/-- Settles O46: a GF(2) command writes operand registers or records one of its two errors, whatever the stream state holds,
and the registers it writes are its destinations. -/
theorem gf2CommandsTouchOnlyDestinations : Obligations.Gf2CommandsTouchOnlyDestinations := by
  unfold Obligations.Gf2CommandsTouchOnlyDestinations
  intro i s t hi h
  have hoperand : ∀ q ∉ dests i, t.p[q.val] = s.p[q.val] := (exec_writesWithin h).operand
  have hindependent := exec_withStreamState hi h
  cases exec_gf2Effect hi h with
  | writes p written => exact ⟨rfl, rfl, rfl, rfl, rfl, hoperand, .inl rfl, hindependent⟩
  | dividesByZero hdivrem =>
    exact ⟨rfl, rfl, rfl, rfl, rfl, hoperand, .inr ⟨rfl, rfl, .inl ⟨hdivrem, rfl⟩⟩, hindependent⟩
  | noInverse hrecip =>
    exact ⟨rfl, rfl, rfl, rfl, rfl, hoperand, .inr ⟨rfl, rfl, .inr ⟨hrecip, rfl⟩⟩, hindependent⟩

end Sys2Proof.Proofs
end

section
/-! PROOFS. DIVREM (R126): quotient and remainder fit their registers, and are known for a dividend of smaller degree and for the
divisor 1. -/

namespace Sys2Proof.Machine

theorem pdiv_and_pmod_eq {x y q r : Nat} (hy : y ≠ 0) (hx : x = clmul q y ^^^ r) (hr : deg r < deg y) :
    pdiv x y = q ∧ pmod x y = r := by
  obtain ⟨hq, hr⟩ := (eq_pdiv_and_eq_pmod_iff hy).1 ⟨hx, hr⟩
  exact ⟨hq.symm, hr.symm⟩

theorem pdiv_and_pmod_of_deg_lt {x y : Nat} (hy : y ≠ 0) (h : deg x < deg y) : pdiv x y = 0 ∧ pmod x y = x :=
  pdiv_and_pmod_eq hy (by simp) h

theorem pdiv_and_pmod_one (x : Nat) : pdiv x 1 = x ∧ pmod x 1 = 0 :=
  pdiv_and_pmod_eq Nat.one_ne_zero (by simp) (by decide)

theorem pmod_eq_xor (u : Nat) {v : Nat} (hv : v ≠ 0) : pmod u v = u ^^^ clmul (pdiv u v) v := calc
  pmod u v = clmul (pdiv u v) v ^^^ pmod u v ^^^ clmul (pdiv u v) v := by
    rw [Nat.xor_comm (clmul _ _), Nat.xor_assoc, Nat.xor_self, Nat.xor_zero]
  _ = u ^^^ clmul (pdiv u v) v := by rw [clmul_pdiv_xor_pmod u hv]

theorem clmul_pdiv_eq_xor (u : Nat) {v : Nat} (hv : v ≠ 0) : clmul (pdiv u v) v = u ^^^ pmod u v := by
  rw [pmod_eq_xor u hv, ← Nat.xor_assoc, Nat.xor_self, Nat.zero_xor]

/-- R10: a factor is no longer than its product with a nonzero polynomial. -/
theorem lt_of_clmul_lt {q y n : Nat} (hy : y ≠ 0) (h : clmul q y < 2 ^ n) : q < 2 ^ n := by
  rcases eq_or_ne q 0 with rfl | hq
  · exact Nat.two_pow_pos n
  · have hbit := testBit_clmul_log2_add_log2 hq hy
    have hlt : q.log2 + y.log2 < n := by
      by_contra hge
      rw [Nat.testBit_lt_two_pow (h.trans_le (Nat.pow_le_pow_right (by decide) (not_lt.1 hge)))] at hbit
      cases hbit
    exact (Nat.log2_lt hq).1 (by omega)

/-- R126: a remainder is no longer than the dividend. -/
theorem pmod_lt_of_lt {x y n : Nat} (hy : y ≠ 0) (hx : x < 2 ^ n) : pmod x y < 2 ^ n := by
  rcases Nat.lt_or_ge n y.log2 with hlt | hge
  · rw [pmod_of_lt hy (hx.trans (Nat.pow_lt_pow_right (by decide) hlt))]; exact hx
  · exact (pmod_lt x hy).trans_le (Nat.pow_le_pow_right (by decide) hge)

/-- R126: a quotient is no longer than the dividend. -/
theorem pdiv_lt_of_lt {x y n : Nat} (hy : y ≠ 0) (hx : x < 2 ^ n) : pdiv x y < 2 ^ n := by
  refine lt_of_clmul_lt hy ?_
  rw [clmul_pdiv_eq_xor x hy]
  exact Nat.xor_lt_two_pow hx (pmod_lt_of_lt hy hx)

theorem toNat_ofNat_of_lt {n : Nat} (h : n < 2 ^ 64) : (BitVec.ofNat 64 n).toNat = n := by
  rw [BitVec.toNat_ofNat, Nat.mod_eq_of_lt h]

end Sys2Proof.Machine

namespace Sys2Proof.Proofs

open Sys2Proof.Machine Sys2Proof.Spec

/-- Settles O38: by the two cases of the divisor; quotient and remainder are the pair of R11, and neither is cut when it is
written. -/
theorem divremResult : Obligations.DivremResult := by
  unfold Obligations.DivremResult
  refine fun rd rx rs1 rs2 => ⟨encode_divrem rd rx rs1 rs2 ▸ spelledOnlyBy_encode _, fun s =>
    ⟨exec_divrem_of_zero rd rx rs1, fun hne => ?_⟩⟩
  have hy := toNat_ne_zero hne
  have hq := toNat_ofNat_of_lt (pdiv_lt_of_lt hy s.p[rs1.val].isLt)
  have hr := toNat_ofNat_of_lt (pmod_lt_of_lt hy s.p[rs1.val].isLt)
  refine ⟨_, _, ?_, ?_, fun hdeg => ?_, fun hone => ?_, exec_divrem_of_ne_zero rd rx rs1 hne⟩
  · rw [hq, hr, clmul_pdiv_xor_pmod _ hy]
  · rw [hr, deg_lt_deg_iff hy]
    exact pmod_lt _ hy
  · obtain ⟨hquot, hrem⟩ := pdiv_and_pmod_of_deg_lt hy hdeg
    rw [hquot, hrem]
    exact ⟨rfl, BitVec.ofNat_toNat .. ▸ rfl⟩
  · obtain ⟨hquot, hrem⟩ := pdiv_and_pmod_one s.p[rs1.val].toNat
    simp [hone, hquot, hrem]

end Sys2Proof.Proofs
end

section
/-! PROOFS. The polynomials of R9 as polynomials over ZMod 2: exclusive or is the sum, and the carry-less product the product. -/

namespace Sys2Proof.Machine

open Polynomial

/-- R9: the polynomial whose coefficients are the bits of a. -/
noncomputable def toPoly (a : Nat) : (ZMod 2)[X] := ∑ i ∈ Finset.range (bitLen a), if a.testBit i then X ^ i else 0

theorem testBit_of_bitLen_le {a i : Nat} (h : bitLen a ≤ i) : a.testBit i = false :=
  Nat.testBit_lt_two_pow ((bitLen_le_iff a i).1 h)

theorem coeff_toPoly (a i : Nat) : (toPoly a).coeff i = if a.testBit i then 1 else 0 := by
  have hterm (j : Nat) : (if a.testBit j then X ^ j else 0 : (ZMod 2)[X]).coeff i =
      if j = i then (if a.testBit i then 1 else 0) else 0 := by
    rcases eq_or_ne j i with rfl | hji
    · rw [if_pos rfl, apply_ite (coeff · j), coeff_X_pow_self, coeff_zero]
    · rw [if_neg hji, apply_ite (coeff · i), coeff_X_pow, if_neg hji.symm, coeff_zero, ite_self]
  rw [toPoly, finsetSum_coeff, Finset.sum_congr rfl fun j _ => hterm j, Finset.sum_ite_eq']
  split_ifs with hin hbit hbit
  · rfl
  · rfl
  · simp [testBit_of_bitLen_le (by simpa using hin)] at hbit
  · rfl

theorem toPoly_injective : Function.Injective toPoly := fun a b h =>
  Nat.eq_of_testBit_eq fun i => by
    have hi := congrArg (coeff · i) h
    simp only [coeff_toPoly] at hi
    cases ha : a.testBit i <;> cases hb : b.testBit i <;> simp_all

@[simp] theorem toPoly_zero : toPoly 0 = 0 := rfl

theorem toPoly_two_pow (n : Nat) : toPoly (2 ^ n) = X ^ n := by
  ext i
  simp [coeff_toPoly, coeff_X_pow, Nat.testBit_two_pow, eq_comm]

@[simp] theorem toPoly_one : toPoly 1 = 1 := toPoly_two_pow 0

theorem toPoly_xor (a b : Nat) : toPoly (a ^^^ b) = toPoly a + toPoly b := by
  ext i
  rw [coeff_add, coeff_toPoly, coeff_toPoly, coeff_toPoly, Nat.testBit_xor]
  cases a.testBit i <;> cases b.testBit i <;> decide

theorem toPoly_shiftLeft (a n : Nat) : toPoly (a <<< n) = toPoly a * X ^ n := by
  ext i
  rw [coeff_mul_X_pow', coeff_toPoly, coeff_toPoly, Nat.testBit_shiftLeft]
  by_cases h : n ≤ i <;> simp [h]

theorem toPoly_clmulTo (a b n : Nat) :
    toPoly (clmulTo a b n) = toPoly a * ∑ i ∈ Finset.range n, if b.testBit i then X ^ i else 0 := by
  induction n with
  | zero => simp [clmulTo]
  | succ n ih =>
    rw [clmulTo, toPoly_xor, ih, Finset.sum_range_succ, mul_add, apply_ite toPoly, toPoly_shiftLeft, toPoly_zero, mul_ite,
      mul_zero]

/-- R10: the carry-less product is the product. -/
theorem toPoly_clmul (a b : Nat) : toPoly (clmul a b) = toPoly a * toPoly b := toPoly_clmulTo a b (bitLen b)

theorem clmul_comm (a b : Nat) : clmul a b = clmul b a :=
  toPoly_injective (by rw [toPoly_clmul, toPoly_clmul, mul_comm])

theorem degree_toPoly_lt_iff (a n : Nat) : (toPoly a).degree < n ↔ a < 2 ^ n := by
  rw [degree_lt_iff_coeff_zero]
  constructor
  · intro h
    refine Nat.lt_pow_two_of_testBit a fun i hi => ?_
    simpa [coeff_toPoly] using h i hi
  · intro h i hi
    rw [coeff_toPoly, Nat.testBit_lt_two_pow (h.trans_le (Nat.pow_le_pow_right (by decide) hi)), if_neg Bool.false_ne_true]

end Sys2Proof.Machine
end

section
/-! PROOFS. The ring of residues modulo G: each class has one reduced polynomial, so an equation between reduced polynomials is
one between residues. -/

namespace Sys2Proof.Machine

open Polynomial

/-- Polynomials modulo G. -/
abbrev Residue : Type := AdjoinRoot (toPoly generator)

/-- R11: the class of a modulo G. -/
noncomputable def residue (a : Nat) : Residue := AdjoinRoot.mk (toPoly generator) (toPoly a)

@[simp] theorem residue_zero : residue 0 = 0 := map_zero _

@[simp] theorem residue_one : residue 1 = 1 := by rw [residue, toPoly_one, map_one]

@[simp] theorem residue_generator : residue generator = 0 := AdjoinRoot.mk_self

theorem residue_xor (a b : Nat) : residue (a ^^^ b) = residue a + residue b := by
  rw [residue, toPoly_xor, map_add]; rfl

theorem residue_clmul (a b : Nat) : residue (clmul a b) = residue a * residue b := by
  rw [residue, toPoly_clmul, map_mul]; rfl

theorem residue_eq_zero_iff {a : Nat} : residue a = 0 ↔ toPoly generator ∣ toPoly a := AdjoinRoot.mk_eq_zero

theorem residue_pmod (a : Nat) : residue (pmod a generator) = residue a := by
  conv_rhs => rw [← clmul_pdiv_xor_pmod a generator_ne_zero, residue_xor, residue_clmul, residue_generator, mul_zero,
    zero_add]

theorem degree_toPoly_generator : (toPoly generator).degree = 32 := by
  refine le_antisymm (Order.lt_succ_iff.1 ?_) (le_degree_of_ne_zero ?_)
  · exact (degree_toPoly_lt_iff generator 33).2 (by decide)
  · rw [coeff_toPoly]; decide

theorem reduced_one : Reduced 1 := by decide

theorem eq_zero_of_residue_eq_zero {a : Nat} (ha : Reduced a) (h : residue a = 0) : a = 0 := by
  refine toPoly_injective (eq_zero_of_dvd_of_degree_lt (residue_eq_zero_iff.1 h) ?_)
  rw [degree_toPoly_generator]
  exact (degree_toPoly_lt_iff a 32).2 ha

/-- R9: two reduced polynomials of one class are equal. -/
theorem eq_of_residue_eq {a b : Nat} (ha : Reduced a) (hb : Reduced b) (h : residue a = residue b) : a = b := by
  refine Nat.xor_eq_zero_iff.1 (eq_zero_of_residue_eq_zero (Nat.xor_lt_two_pow ha hb) ?_)
  rw [residue_xor, h, ← residue_xor, Nat.xor_self, residue_zero]

theorem residue_eq_zero_iff_pmod {a : Nat} : residue a = 0 ↔ pmod a generator = 0 := by
  rw [← residue_pmod]
  exact ⟨eq_zero_of_residue_eq_zero (pmod_generator_reduced a), fun h => by rw [h, residue_zero]⟩

theorem residue_one_ne_zero : residue 1 ≠ 0 := fun h =>
  Nat.one_ne_zero (eq_zero_of_residue_eq_zero reduced_one h)

end Sys2Proof.Machine
end

section
/-! PROOFS. Products and powers modulo G (R122, R124, R131): MULMOD's product is the residues' product, and square-and-multiply
their power. -/

namespace Sys2Proof.Machine

theorem residue_mulmod (a b : Nat) : residue (mulmod a b) = residue a * residue b := by
  rw [mulmod, residue_pmod, residue_clmul]

/-- R11: a product depends on the classes of its factors only. -/
theorem mulmod_congr {a a' b b' : Nat} (ha : residue a = residue a') (hb : residue b = residue b') :
    mulmod a b = mulmod a' b' :=
  eq_of_residue_eq (mulmod_reduced ..) (mulmod_reduced ..) (by rw [residue_mulmod, residue_mulmod, ha, hb])

theorem mulmod_comm (a b : Nat) : mulmod a b = mulmod b a := by rw [mulmod, clmul_comm, mulmod]

theorem mulmod_assoc (a b c : Nat) : mulmod (mulmod a b) c = mulmod a (mulmod b c) :=
  eq_of_residue_eq (mulmod_reduced ..) (mulmod_reduced ..) (by simp only [residue_mulmod, mul_assoc])

theorem mulmod_xor_left (a b c : Nat) : mulmod (a ^^^ b) c = mulmod a c ^^^ mulmod b c := by
  rw [mulmod, clmul_xor_left, pmod_xor _ _ generator_ne_zero]; rfl

theorem mulmod_one (a : Nat) : mulmod a 1 = pmod a generator := by rw [mulmod, clmul_one]

theorem mulmod_eq_zero {a : Nat} (h : pmod a generator = 0) (b : Nat) : mulmod a b = 0 :=
  eq_zero_of_residue_eq_zero (mulmod_reduced a b) (by rw [residue_mulmod, residue_eq_zero_iff_pmod.2 h, zero_mul])

theorem pmod_generator_self : pmod generator generator = 0 := residue_eq_zero_iff_pmod.1 residue_generator

/-! Powers. -/

/-- A square-and-multiply step on the accumulator: bit n of the exponent joins the bits below it. -/
theorem pow_mod_two_pow_succ {M : Type*} [Monoid M] (r : M) (y n : Nat) :
    r ^ (y % 2 ^ (n + 1)) = if y.testBit n then r ^ (y % 2 ^ n) * r ^ 2 ^ n else r ^ (y % 2 ^ n) := by
  rw [Nat.mod_pow_succ, pow_add, Nat.testBit_eq_decide_div_mod_eq]
  rcases Nat.mod_two_eq_zero_or_one (y / 2 ^ n) with h | h <;> simp [h]

theorem pow_two_pow_succ {M : Type*} [Monoid M] (r : M) (n : Nat) : r ^ 2 ^ (n + 1) = r ^ 2 ^ n * r ^ 2 ^ n := by
  rw [← pow_add, Nat.pow_succ, Nat.mul_two]

/-- R124: accumulator and base after n bits of the exponent. -/
theorem residue_powSteps (x y n : Nat) :
    residue (powSteps x y n).1 = residue x ^ (y % 2 ^ n) ∧ residue (powSteps x y n).2 = residue x ^ 2 ^ n := by
  induction n with
  | zero => simp [powSteps, residue_pmod, Nat.mod_one]
  | succ n ih =>
    obtain ⟨hacc, hbase⟩ := ih
    rw [powSteps, pow_mod_two_pow_succ, pow_two_pow_succ, apply_ite residue, residue_mulmod, residue_mulmod, hacc, hbase]
    exact ⟨rfl, rfl⟩

theorem powSteps_reduced (x y n : Nat) : Reduced (powSteps x y n).1 := by
  induction n with
  | zero => exact reduced_one
  | succ n ih =>
    rw [powSteps]
    dsimp only
    split
    · exact mulmod_reduced ..
    · exact ih

theorem powmod_reduced (x y : Nat) : Reduced (powmod x y) := powSteps_reduced x y 64

theorem residue_powmod (x : Nat) {y : Nat} (hy : y < 2 ^ 64) : residue (powmod x y) = residue x ^ y := by
  rw [powmod, (residue_powSteps x y 64).1, Nat.mod_eq_of_lt hy]

theorem eq_powmod {a x y : Nat} (ha : Reduced a) (hy : y < 2 ^ 64) (h : residue a = residue x ^ y) : a = powmod x y :=
  eq_of_residue_eq ha (powmod_reduced x y) (h.trans (residue_powmod x hy).symm)

theorem powmod_zero (x : Nat) : powmod x 0 = 1 :=
  (eq_powmod reduced_one (by decide) (by rw [residue_one, pow_zero])).symm

theorem powmod_one (x : Nat) : powmod x 1 = pmod x generator :=
  (eq_powmod (pmod_generator_reduced x) (by decide) (by rw [residue_pmod, pow_one])).symm

theorem powmod_add (x : Nat) {y z : Nat} (h : y + z < 2 ^ 64) : powmod x (y + z) = mulmod (powmod x y) (powmod x z) := by
  refine (eq_powmod (mulmod_reduced ..) h ?_).symm
  rw [residue_mulmod, residue_powmod x (by omega), residue_powmod x (by omega), pow_add]

theorem powmod_succ (x : Nat) {y : Nat} (h : y + 1 < 2 ^ 64) : powmod x (y + 1) = mulmod (powmod x y) x := by
  refine (eq_powmod (mulmod_reduced ..) h ?_).symm
  rw [residue_mulmod, residue_powmod x (by omega), pow_succ]

theorem powmod_eq_zero {x y : Nat} (hx : pmod x generator = 0) (hpos : 1 ≤ y) (hy : y < 2 ^ 64) : powmod x y = 0 :=
  eq_zero_of_residue_eq_zero (powmod_reduced x y)
    (by rw [residue_powmod x hy, residue_eq_zero_iff_pmod.2 hx, zero_pow (by omega)])

end Sys2Proof.Machine

namespace Sys2Proof.Proofs

open Sys2Proof.Machine Sys2Proof.Spec

/-- Settles O36: the word is MULMOD's encoding; G is congruent to 0, as is 0. -/
theorem mulmodResult : Obligations.MulmodResult := by
  unfold Obligations.MulmodResult
  refine ⟨fun rd rs1 rs2 => ⟨encode_mulmod rd rs1 rs2 ▸ spelledOnlyBy_encode _, fun _ => rfl⟩, fun x y => ?_, by decide⟩
  have hzero := mulmod_eq_zero (a := 0) rfl
  exact ⟨mulmod_reduced x y, mulmod_comm x y, hzero y, mulmod_comm x 0 ▸ hzero x, mulmod_eq_zero pmod_generator_self y⟩

/-- Settles O37: the word is POWMOD's encoding; each clause is a law of powers of residues. -/
theorem powmodResult : Obligations.PowmodResult := by
  unfold Obligations.PowmodResult
  refine ⟨fun rd rs1 rs2 => ⟨encode_powmod rd rs1 rs2 ▸ spelledOnlyBy_encode _, fun _ => rfl⟩, fun x => ?_⟩
  exact ⟨powmod_zero x, powmod_one x, fun y _ => powmod_reduced x y, fun hx _ => powmod_eq_zero hx,
    fun _ => powmod_succ x⟩

/-- Settles O44: each clause is a law of the ring of residues. -/
theorem productAndPowerLaws : Obligations.ProductAndPowerLaws := by
  unfold Obligations.ProductAndPowerLaws
  exact ⟨fun a b c => ⟨mulmod_comm a b, mulmod_assoc a b c, mulmod_xor_left a b c, mulmod_one a⟩,
    fun x _ _ => powmod_add x, fun _ _ => powmod_eq_zero⟩

end Sys2Proof.Proofs
end

section
/-! PROOFS. The source's loops (R123, R125): the multiplication loop's result is congruent to the product, and reduced if its first
operand is, as the accumulator of the power loop always is. -/

namespace Sys2Proof.Machine

theorem residue_shiftLeft_one (a : Nat) : residue (a <<< 1) = residue a * residue 2 := by
  rw [← clmul_two_pow, residue_clmul, pow_one]

/-- R123: the doubling step of the loop. -/
theorem residue_doubled (x : Nat) :
    residue (if (x <<< 1).testBit 32 then x <<< 1 ^^^ generator else x <<< 1) = residue x * residue 2 := by
  rw [apply_ite residue, residue_xor, residue_generator, add_zero, ite_self, residue_shiftLeft_one]

theorem doubled_eq_pmod {x : Nat} (hx : Reduced x) :
    (if (x <<< 1).testBit 32 then x <<< 1 ^^^ generator else x <<< 1) = pmod (x <<< 1) generator := by
  rw [pmod_of_lt_two_pow_succ generator_ne_zero (by rw [log2_generator, Nat.shiftLeft_eq]; omega), log2_generator]

theorem eq_xor_shiftRight_one (y : Nat) : y = (y >>> 1) <<< 1 ^^^ if y.testBit 0 then 1 else 0 := by
  refine Nat.eq_of_testBit_eq fun i => ?_
  have hone : (1 : Nat) = 2 ^ 0 := rfl
  rw [Nat.testBit_xor, Nat.testBit_shiftLeft, Nat.testBit_shiftRight, apply_ite (Nat.testBit · i), hone,
    Nat.testBit_two_pow, Nat.zero_testBit]
  cases i with
  | zero => simp
  | succ i => simp [Nat.add_comm]

theorem residue_eq_shiftRight_one (y : Nat) :
    residue y = residue (y >>> 1) * residue 2 + if y.testBit 0 then 1 else 0 := by
  conv_lhs => rw [eq_xor_shiftRight_one y, residue_xor, residue_shiftLeft_one, apply_ite residue, residue_one, residue_zero]

/-- R123: n rounds of the loop add the product to z, if y has at most n bits. -/
theorem residue_mulmodLoopFrom {n y : Nat} (hy : y < 2 ^ n) (x z : Nat) :
    residue (mulmodLoopFrom n x y z) = residue z + residue x * residue y := by
  induction n generalizing x y z with
  | zero => simp [mulmodLoopFrom, Nat.lt_one_iff.1 hy]
  | succ n ih =>
    have hhalf : y >>> 1 < 2 ^ n := by rw [Nat.shiftRight_eq_div_pow]; omega
    rw [mulmodLoopFrom, ih hhalf, residue_doubled, residue_eq_shiftRight_one y, apply_ite residue, residue_xor]
    split_ifs <;> ring

theorem mulmodLoopFrom_reduced (n : Nat) {x z : Nat} (y : Nat) (hx : Reduced x) (hz : Reduced z) :
    Reduced (mulmodLoopFrom n x y z) := by
  induction n generalizing x y z with
  | zero => exact hz
  | succ n ih =>
    rw [mulmodLoopFrom, doubled_eq_pmod hx]
    refine ih _ (pmod_generator_reduced _) ?_
    split
    · exact Nat.xor_lt_two_pow hz hx
    · exact hz

theorem residue_mulmodLoop (x y : Nat) : residue (mulmodLoop x y) = residue x * residue y := by
  rw [mulmodLoop, residue_mulmodLoopFrom (lt_two_pow_bitLen y), residue_zero, zero_add]

theorem pmod_mulmodLoop (x y : Nat) : pmod (mulmodLoop x y) generator = mulmod x y :=
  eq_of_residue_eq (pmod_generator_reduced _) (mulmod_reduced x y)
    (by rw [residue_pmod, residue_mulmodLoop, residue_mulmod])

theorem mulmodLoop_eq_mulmod {x : Nat} (hx : Reduced x) (y : Nat) : mulmodLoop x y = mulmod x y :=
  eq_of_residue_eq (mulmodLoopFrom_reduced _ y hx (Nat.two_pow_pos 32)) (mulmod_reduced x y)
    (by rw [residue_mulmodLoop, residue_mulmod])

/-- R125: the accumulator is POWMOD's, and the base is congruent to POWMOD's. -/
theorem powLoopSteps_powSteps (x y n : Nat) :
    (powLoopSteps x y n).1 = (powSteps x y n).1 ∧ residue (powLoopSteps x y n).2 = residue (powSteps x y n).2 := by
  induction n with
  | zero => exact ⟨rfl, (residue_pmod x).symm⟩
  | succ n ih =>
    obtain ⟨hacc, hbase⟩ := ih
    rw [powLoopSteps, powSteps]
    dsimp only
    rw [hacc, mulmodLoop_eq_mulmod (powSteps_reduced x y n), mulmod_congr rfl hbase, residue_mulmodLoop, residue_mulmod,
      hbase]
    exact ⟨rfl, rfl⟩

theorem powmodLoop_eq_powmod (x : Nat) {y : Nat} (hy : y < 2 ^ 64) : powmodLoop x y = powmod x y := by
  rw [powmodLoop, (powLoopSteps_powSteps x y _).1]
  refine eq_powmod (powSteps_reduced ..) hy ?_
  rw [(residue_powSteps ..).1, Nat.mod_eq_of_lt (lt_two_pow_bitLen y)]

end Sys2Proof.Machine

namespace Sys2Proof.Proofs

open Sys2Proof.Machine Sys2Proof.Spec

/-- Settles O42: the loop keeps z ⊕ x·y modulo G, and stays reduced once it is; G times 1 is computed. -/
theorem sourceLoopAgreesWhenReduced : Obligations.SourceLoopAgreesWhenReduced := by
  unfold Obligations.SourceLoopAgreesWhenReduced
  exact ⟨fun _ y hx => mulmodLoop_eq_mulmod hx y, pmod_mulmodLoop, by decide⟩

/-- Settles O43: the literal loop has POWMOD's accumulator, and a base congruent to POWMOD's. -/
theorem literalPowerAgrees : Obligations.LiteralPowerAgrees := by
  unfold Obligations.LiteralPowerAgrees
  exact fun x _ => powmodLoop_eq_powmod x

end Sys2Proof.Proofs
end

section
/-! PROOFS. The order of x modulo G (R131, law 5), and that its powers are all the nonzero reduced polynomials (R129). -/

namespace Sys2Proof.Machine

theorem powmod_two_order : powmod 2 (2 ^ 32 - 1) = 1 := by decide +kernel

theorem residue_two_pow_order : residue 2 ^ (2 ^ 32 - 1) = 1 := by
  rw [← residue_powmod 2 (by decide), powmod_two_order, residue_one]

theorem powmod_two_maximal_ne_one : ∀ p ∈ [3, 5, 17, 257, 65537], powmod 2 ((2 ^ 32 - 1) / p) ≠ 1 := by decide +kernel

/-- R131, law 5: the prime factors of 2^32 − 1. -/
theorem mem_of_prime_dvd {p : Nat} (hp : p.Prime) (h : p ∣ 2 ^ 32 - 1) : p ∈ [3, 5, 17, 257, 65537] := by
  rw [show 2 ^ 32 - 1 = 3 * 5 * 17 * 257 * 65537 by decide] at h
  simp only [hp.dvd_mul] at h
  simpa [Nat.prime_dvd_prime_iff_eq hp, show Nat.Prime 3 by norm_num, show Nat.Prime 5 by norm_num,
    show Nat.Prime 17 by norm_num, show Nat.Prime 257 by norm_num, show Nat.Prime 65537 by norm_num, or_assoc] using h

theorem residue_pow_eq_one_iff {x y : Nat} (hy : y < 2 ^ 64) : residue x ^ y = 1 ↔ powmod x y = 1 := by
  rw [← residue_powmod x hy, ← residue_one]
  exact ⟨eq_of_residue_eq (powmod_reduced x y) reduced_one, congrArg _⟩

theorem orderOf_residue_two : orderOf (residue 2) = 2 ^ 32 - 1 := by
  refine orderOf_eq_of_pow_and_pow_div_prime (by decide) residue_two_pow_order fun p hp hdvd => ?_
  have hlt : (2 ^ 32 - 1) / p < 2 ^ 64 := (Nat.div_le_self _ _).trans_lt (by decide)
  rw [Ne, residue_pow_eq_one_iff hlt]
  exact powmod_two_maximal_ne_one p (mem_of_prime_dvd hp hdvd)

theorem residue_two_pow_ne_zero (k : Nat) : residue 2 ^ k ≠ 0 := fun h => residue_one_ne_zero <| calc
  residue 1 = (residue 2 ^ (2 ^ 32 - 1)) ^ k := by rw [residue_two_pow_order, one_pow, residue_one]
  _ = (residue 2 ^ k) ^ (2 ^ 32 - 1) := pow_right_comm ..
  _ = 0 := by rw [h, zero_pow (by decide)]

theorem powmod_two_ne_zero {y : Nat} (hy : y < 2 ^ 64) : powmod 2 y ≠ 0 := fun h =>
  residue_two_pow_ne_zero y (by rw [← residue_powmod 2 hy, h, residue_zero])

theorem powmod_two_mod_order {y : Nat} (hy : y < 2 ^ 64) : powmod 2 y = powmod 2 (y % (2 ^ 32 - 1)) := by
  have hmod : y % (2 ^ 32 - 1) < 2 ^ 64 := (Nat.mod_le ..).trans_lt hy
  refine (eq_powmod (powmod_reduced ..) hy ?_).symm
  rw [residue_powmod 2 hmod, ← orderOf_residue_two, pow_mod_orderOf]

/-- R131, law 5: the powers of x are all the nonzero reduced polynomials, there being as many of the one as of the other. -/
theorem exists_powmod_two_eq {a : Nat} (ha : Reduced a) (hne : a ≠ 0) : ∃ k < 2 ^ 32 - 1, powmod 2 k = a := by
  have hmaps : Set.MapsTo (powmod 2) (Finset.range (2 ^ 32 - 1)) (Finset.Ico 1 (2 ^ 32)) := fun k hk => by
    have hlt : k < 2 ^ 64 := by have := Finset.mem_range.1 hk; omega
    exact Finset.mem_coe.2 (Finset.mem_Ico.2 ⟨Nat.one_le_iff_ne_zero.2 (powmod_two_ne_zero hlt), powmod_reduced 2 k⟩)
  have hinj : Set.InjOn (powmod 2) (Finset.range (2 ^ 32 - 1)) := fun j hj k hk h => by
    have hj := Finset.mem_range.1 hj
    have hk := Finset.mem_range.1 hk
    have hres := congrArg residue h
    rw [residue_powmod 2 (by omega), residue_powmod 2 (by omega)] at hres
    exact pow_injOn_Iio_orderOf (by rwa [orderOf_residue_two]) (by rwa [orderOf_residue_two]) hres
  have hcard : (Finset.Ico 1 (2 ^ 32)).card ≤ (Finset.range (2 ^ 32 - 1)).card := by
    rw [Nat.card_Ico, Finset.card_range]
  obtain ⟨k, hk, heq⟩ := Finset.surjOn_of_injOn_of_card_le _ hmaps hinj hcard
    (Finset.mem_coe.2 (Finset.mem_Ico.2 ⟨Nat.one_le_iff_ne_zero.2 hne, ha⟩))
  exact ⟨k, Finset.mem_range.1 hk, heq⟩

theorem exists_mulmod_eq_one {a : Nat} (ha : Reduced a) (hne : a ≠ 0) : ∃ b, Reduced b ∧ mulmod a b = 1 := by
  obtain ⟨k, hk, rfl⟩ := exists_powmod_two_eq ha hne
  refine ⟨powmod 2 (2 ^ 32 - 1 - k), powmod_reduced .., ?_⟩
  rw [← powmod_add 2 (by omega), Nat.add_sub_cancel' hk.le, ← residue_pow_eq_one_iff (by decide)]
  exact residue_two_pow_order

end Sys2Proof.Machine

namespace Sys2Proof.Proofs

open Sys2Proof.Machine Sys2Proof.Spec

/-- Settles O45: the order of x is computed from the five prime factors of 2^32 − 1; every nonzero reduced polynomial is a power
of x, and the power that is missing to the order is its inverse. -/
theorem generatorIsPrimitive : Obligations.GeneratorIsPrimitive := by
  unfold Obligations.GeneratorIsPrimitive
  refine ⟨powmod_two_order, fun y hpos hlt => ?_, fun y hy => ⟨powmod_two_mod_order hy, powmod_two_ne_zero hy⟩,
    fun a => exists_mulmod_eq_one⟩
  rw [Ne, ← residue_pow_eq_one_iff (by omega)]
  exact pow_ne_one_of_lt_orderOf hpos.ne' (by rwa [orderOf_residue_two])

end Sys2Proof.Proofs
end

section
/-! PROOFS. RECIP (R128, R129): what the extended Euclidean loop keeps, how many rounds it takes, and that it ends with 1 unless
its operand is congruent to 0. -/

namespace Sys2Proof.Machine

open Polynomial

theorem toPoly_eq_pdiv_mul_add_pmod (u : Nat) {v : Nat} (hv : v ≠ 0) :
    toPoly u = toPoly (pdiv u v) * toPoly v + toPoly (pmod u v) := by
  rw [← toPoly_clmul, ← toPoly_xor, clmul_pdiv_xor_pmod u hv]

theorem residue_pmod_eq (u : Nat) {v : Nat} (hv : v ≠ 0) :
    residue (pmod u v) = residue u + residue (pdiv u v) * residue v := by
  rw [pmod_eq_xor u hv, residue_xor, residue_clmul]

/-- R128: a remainder has degree below the divisor's. -/
theorem pmod_lt_of_divisor_lt {v n : Nat} (u : Nat) (hv : v ≠ 0) (h : v < 2 ^ (n + 1)) : pmod u v < 2 ^ n :=
  (pmod_lt u hv).trans_le (Nat.pow_le_pow_right (by decide) (Nat.lt_succ_iff.1 ((Nat.log2_lt hv).2 h)))

theorem euclid_of_zero (n u a b : Nat) : euclid n u 0 a b = (u, a) := by
  cases n <;> simp [euclid]

theorem euclid_of_ne_zero (n u : Nat) {v : Nat} (a b : Nat) (hv : v ≠ 0) :
    euclid (n + 1) u v a b = euclid n v (pmod u v) b (a ^^^ mulmod (pdiv u v) b) := by
  simp [euclid, hv]

/-! The number of rounds. -/

/-- R128: the degree of v falls in every round, so n rounds end the loop on a v of degree below n. -/
theorem euclid_eq_of_le {m n u v : Nat} (a b : Nat) (hv : v < 2 ^ n) (hle : n ≤ m) :
    euclid m u v a b = euclid n u v a b := by
  induction n generalizing m u v a b with
  | zero => rw [Nat.lt_one_iff.1 hv, euclid_of_zero, euclid_of_zero]
  | succ n ih =>
    obtain ⟨m, rfl⟩ := Nat.exists_eq_succ_of_ne_zero (show m ≠ 0 by omega)
    by_cases hzero : v = 0
    · rw [hzero, euclid_of_zero, euclid_of_zero]
    · rw [euclid_of_ne_zero m u a b hzero, euclid_of_ne_zero n u a b hzero]
      exact ih _ _ (pmod_lt_of_divisor_lt u hzero hv) (Nat.le_of_succ_le_succ hle)

/-- R128: the first round leaves v of degree at most 32, the second of degree below 32, and 32 more end the loop. -/
theorem euclid_generator_eq (x : Nat) {n : Nat} (hn : 34 ≤ n) : euclid n generator x 0 1 = euclid 34 generator x 0 1 := by
  obtain ⟨m, rfl⟩ := Nat.exists_eq_add_of_le' (show 2 ≤ n by omega)
  by_cases hx : x = 0
  · rw [hx, euclid_of_zero, euclid_of_zero]
  have hfirst : pmod generator x < 2 ^ 33 := by
    rcases Nat.lt_or_ge generator (2 ^ x.log2) with hlt | hge
    · rw [pmod_of_lt hx hlt]; decide
    · exact (pmod_lt generator hx).trans (hge.trans_lt (by decide))
  rw [euclid_of_ne_zero (m + 1) _ _ _ hx, euclid_of_ne_zero 33 _ _ _ hx]
  by_cases hr : pmod generator x = 0
  · rw [hr, euclid_of_zero, euclid_of_zero]
  rw [euclid_of_ne_zero m _ _ _ hr, euclid_of_ne_zero 32 _ _ _ hr]
  exact euclid_eq_of_le _ _ (pmod_lt_of_divisor_lt x hr hfirst) (by omega)

/-! The loop's result. -/

/-- R128: every round keeps u = x·a and v = x·b modulo G, and a and b reduced. -/
theorem euclid_bezout (x n : Nat) {u v a b : Nat} (hu : residue u = residue x * residue a)
    (hv : residue v = residue x * residue b) (ha : Reduced a) (hb : Reduced b) :
    residue (euclid n u v a b).1 = residue x * residue (euclid n u v a b).2 ∧ Reduced (euclid n u v a b).2 := by
  induction n generalizing u v a b with
  | zero => exact ⟨hu, ha⟩
  | succ n ih =>
    by_cases hzero : v = 0
    · rw [hzero, euclid_of_zero]; exact ⟨hu, ha⟩
    · rw [euclid_of_ne_zero n u a b hzero]
      refine ih hv ?_ hb (Nat.xor_lt_two_pow ha (mulmod_reduced ..))
      rw [residue_pmod_eq u hzero, residue_xor, residue_mulmod, hu, hv]
      ring

/-- R128: the last coefficient times x is the last u. -/
theorem euclid_generator_bezout (x n : Nat) :
    residue (euclid n generator x 0 1).1 = residue x * residue (euclid n generator x 0 1).2 ∧
      Reduced (euclid n generator x 0 1).2 :=
  euclid_bezout x n (by simp) (by simp) (Nat.two_pow_pos 32) reduced_one

theorem eq_one_of_isUnit_toPoly {u : Nat} (h : IsUnit (toPoly u)) : u = 1 := by
  have hne : u ≠ 0 := fun hzero => by rw [hzero] at h; exact not_isUnit_zero h
  have hlt : u < 2 ^ 1 := (degree_toPoly_lt_iff u 1).1 (by rw [degree_eq_zero_of_isUnit h]; decide)
  omega

/-- R129: on coprime polynomials the loop ends with 1. -/
theorem euclid_of_isCoprime {n u v : Nat} (a b : Nat) (hlt : v < 2 ^ n) (h : IsCoprime (toPoly u) (toPoly v)) :
    (euclid n u v a b).1 = 1 := by
  induction n generalizing u v a b with
  | zero =>
    rw [Nat.lt_one_iff.1 hlt] at h ⊢
    exact eq_one_of_isUnit_toPoly (isCoprime_zero_right.1 h)
  | succ n ih =>
    by_cases hzero : v = 0
    · rw [hzero, euclid_of_zero]
      exact eq_one_of_isUnit_toPoly (isCoprime_zero_right.1 (by rwa [hzero] at h))
    · rw [euclid_of_ne_zero n u a b hzero]
      refine ih _ _ (pmod_lt_of_divisor_lt u hzero hlt) ?_
      rw [toPoly_eq_pdiv_mul_add_pmod u hzero] at h
      exact (IsCoprime.mul_add_right_left_iff.1 h).symm

/-- R129: G is irreducible, so a polynomial that is not a multiple of it has no factor in common with it. -/
theorem isCoprime_generator {x : Nat} (h : pmod x generator ≠ 0) : IsCoprime (toPoly generator) (toPoly x) := by
  obtain ⟨b, -, hb⟩ := exists_mulmod_eq_one (pmod_generator_reduced x) h
  have hone : residue (clmul x b ^^^ 1) = 0 := by
    rw [residue_xor, residue_clmul, ← residue_pmod x, ← residue_mulmod, hb, ← residue_xor, Nat.xor_self, residue_zero]
  obtain ⟨c, hc⟩ := residue_eq_zero_iff.1 hone
  rw [toPoly_xor, toPoly_clmul, toPoly_one] at hc
  exact ⟨c, toPoly b, by linear_combination CharTwo.add_self_eq_zero (toPoly x * toPoly b) - hc⟩

/-! The inverse. -/

theorem mulmod_eq_one_iff {x v : Nat} : mulmod x v = 1 ↔ residue x * residue v = 1 := by
  rw [← residue_mulmod, ← residue_one]
  exact ⟨congrArg _, eq_of_residue_eq (mulmod_reduced x v) reduced_one⟩

theorem recip_eq_none {x : Nat} (h : pmod x generator = 0) : recip x = none := by
  obtain ⟨hmul, -⟩ := euclid_generator_bezout x euclidFuel
  rw [residue_eq_zero_iff_pmod.2 h, zero_mul] at hmul
  have hne : (euclid euclidFuel generator x 0 1).1 ≠ 1 := fun hone => residue_one_ne_zero (hone ▸ hmul)
  exact if_neg hne

theorem recip_eq_some {x : Nat} (hx : x < 2 ^ 64) (h : pmod x generator ≠ 0) :
    ∃ v, recip x = some v ∧ Reduced v ∧ mulmod x v = 1 := by
  obtain ⟨hmul, hred⟩ := euclid_generator_bezout x euclidFuel
  have hone : (euclid euclidFuel generator x 0 1).1 = 1 :=
    euclid_of_isCoprime 0 1 (hx.trans (by decide)) (isCoprime_generator h)
  rw [hone, residue_one] at hmul
  exact ⟨_, if_pos hone, hred, mulmod_eq_one_iff.2 hmul.symm⟩

theorem inverse_unique {x u v : Nat} (hu : Reduced u) (hv : Reduced v) (hxu : mulmod x u = 1) (hxv : mulmod x v = 1) :
    u = v := by
  rw [mulmod_eq_one_iff] at hxu hxv
  refine eq_of_residue_eq hu hv ?_
  calc residue u = residue u * (residue x * residue v) := by rw [hxv, mul_one]
    _ = residue x * residue u * residue v := by ring
    _ = residue v := by rw [hxu, one_mul]

theorem recip_pmod {x v : Nat} (hv : Reduced v) (h : mulmod x v = 1) : recip (pmod x generator) = some v := by
  have hreduced := pmod_generator_reduced x
  have hinverse : mulmod (pmod x generator) v = 1 := by
    rwa [mulmod_eq_one_iff, residue_pmod, ← mulmod_eq_one_iff]
  have hne : pmod (pmod x generator) generator ≠ 0 := fun hzero => by
    rw [mulmod_eq_zero hzero v] at hinverse; exact absurd hinverse (by decide)
  obtain ⟨u, hrecip, hu, hone⟩ := recip_eq_some (hreduced.trans (by decide)) hne
  rw [hrecip, inverse_unique hu hv hone hinverse]

end Sys2Proof.Machine

namespace Sys2Proof.Proofs

open Sys2Proof.Machine Sys2Proof.Spec

/-- Settles O39: the word is RECIP's encoding; on an operand not congruent to 0 the loop starts with coprime polynomials, so it
ends with 1 and the inverse, and two reduced inverses are equal. -/
theorem recipResult : Obligations.RecipResult := by
  unfold Obligations.RecipResult
  refine ⟨fun rd rs1 => ⟨encode_recip rd rs1 ▸ spelledOnlyBy_encode _, fun s => ⟨fun hzero => ?_, fun hne => ?_⟩⟩,
    fun x n _ => euclid_generator_eq x⟩
  · exact exec_recip_of_none rd (recip_eq_none hzero)
  · obtain ⟨v, hrecip, hv, hone⟩ := recip_eq_some s.p[rs1.val].isLt hne
    exact ⟨v, hv, hone, fun u hu h => inverse_unique hu hv h hone, recip_pmod hv hone, exec_recip_of_some rd hrecip⟩

end Sys2Proof.Proofs
end

section
/-! PROOFS. The magic delta (R150 to R152): a power of x has an inverse, so there is exactly one reduced polynomial that times
x^tb is the raw delta. -/

namespace Sys2Proof.Machine

open Sys2Proof.Spec

theorem pmod_of_reduced {a : Nat} (h : Reduced a) : pmod a generator = a :=
  pmod_of_lt generator_ne_zero (by rwa [log2_generator])

/-- R152: the correction factor 2^tb has an inverse. -/
theorem recip_powmod_two {tb : Nat} (htb : tb < 2 ^ 64) :
    ∃ v, recip (powmod 2 tb) = some v ∧ mulmod (powmod 2 tb) v = 1 := by
  have hreduced := powmod_reduced 2 tb
  have hne : pmod (powmod 2 tb) generator ≠ 0 := by
    rw [pmod_of_reduced hreduced]; exact powmod_two_ne_zero htb
  obtain ⟨v, hrecip, -, hone⟩ := recip_eq_some (hreduced.trans (by decide)) hne
  exact ⟨v, hrecip, hone⟩

theorem rawDelta_reduced (cur des : Word) : Reduced (rawDelta cur des) := (rev32 cur ^^^ rev32 des).isLt

@[simp] theorem rawDelta_self (crc : Word) : rawDelta crc crc = 0 := by simp [rawDelta]

/-- R150, R152: there is a magic delta for every 64-bit count. -/
theorem exists_magicOf_eq_some (cur des : Word) {tb : Nat} (htb : tb < 2 ^ 64) : ∃ m, magicOf cur des tb = some m := by
  obtain ⟨v, hrecip, -⟩ := recip_powmod_two htb
  exact ⟨_, by rw [magicOf, hrecip, Option.map_some]⟩

section
variable {cur des : Word} {tb m : Nat} (htb : tb < 2 ^ 64) (h : magicOf cur des tb = some m)
include h

theorem magicOf_reduced : Reduced m := by
  obtain ⟨v, -, rfl⟩ := Option.map_eq_some_iff.1 h
  exact mulmod_reduced ..

include htb

/-- R150: the magic delta, moved up to its place in the message, is the raw delta. -/
theorem mulmod_magicOf : mulmod m (powmod 2 tb) = rawDelta cur des := by
  obtain ⟨v, hrecip, hone⟩ := recip_powmod_two htb
  rw [magicOf, hrecip, Option.map_some, Option.some_inj] at h
  calc mulmod m (powmod 2 tb)
      = mulmod (mulmod (powmod 2 tb) v) (rawDelta cur des) := by rw [← h, mulmod_comm, mulmod_assoc]
    _ = rawDelta cur des := by rw [hone, mulmod_comm, mulmod_one, pmod_of_reduced (rawDelta_reduced ..)]
end

/-- R158: there is nothing to patch when the checksum is the desired one. -/
theorem magicOf_self (crc : Word) {tb : Nat} (htb : tb < 2 ^ 64) : magicOf crc crc tb = some 0 := by
  obtain ⟨v, hrecip, -⟩ := recip_powmod_two htb
  have hzero : mulmod v 0 = 0 := (mulmod_comm v 0).trans (mulmod_eq_zero rfl v)
  rw [magicOf, hrecip, Option.map_some, rawDelta_self, hzero]

/-- R151: with a count of 0 the factor is 1. -/
theorem magicOf_zero {cur des : Word} {m : Nat} (h : magicOf cur des 0 = some m) : m = rawDelta cur des := by
  rw [← mulmod_magicOf (by decide) h, powmod_zero, mulmod_one, pmod_of_reduced (magicOf_reduced h)]

theorem encode_delta (rd rs1 rs2 rx : Reg) :
    encode (.delta rd rs1 rs2 rx) = 0x00000030 ||| field rd 8 ||| field rs1 11 ||| field rs2 14 ||| field rx 17 := by
  simp [encode, enc, Instr.opcode, field]

theorem exec_delta_of_some {rs1 rs2 rx : Reg} {s : State} {m : Nat} (rd : Reg)
    (h : magicOf (s.p[rs1.val].setWidth 32) (s.p[rs2.val].setWidth 32) s.p[rx.val].toNat = some m) :
    exec (.delta rd rs1 rs2 rx) s = .next (wroteP s [rs1, rs2, rx] rd (BitVec.ofNat 64 m)) := by
  rcases execDelta_cases rd rs1 rs2 rx s with ⟨hnone, -⟩ | ⟨m', hsome, heq⟩
  · cases hnone.symm.trans h
  · cases hsome.symm.trans h; exact heq

end Sys2Proof.Machine

namespace Sys2Proof.Proofs

open Sys2Proof.Machine Sys2Proof.Spec

/-- Settles O47: x has finite order modulo G, so no power of it is 0, and RECIP inverts what is not 0. -/
theorem powerOfXIsInvertible : Obligations.PowerOfXIsInvertible := by
  unfold Obligations.PowerOfXIsInvertible
  exact fun tb htb => ⟨powmod_two_ne_zero htb, recip_powmod_two htb⟩

/-- Settles O48: the word is DELTA's encoding; there is a magic delta for every count, so the failing branch is not taken. -/
theorem deltaResult : Obligations.DeltaResult := by
  unfold Obligations.DeltaResult
  refine fun rd rs1 rs2 rx => ⟨encode_delta rd rs1 rs2 rx ▸ spelledOnlyBy_encode _, fun s => ?_⟩
  have htb := s.p[rx.val].isLt
  obtain ⟨m, hm⟩ := exists_magicOf_eq_some (s.p[rs1.val].setWidth 32) (s.p[rs2.val].setWidth 32) htb
  refine ⟨m, magicOf_reduced hm, hm, mulmod_magicOf htb hm, fun heq => ?_, fun hzero => ?_, exec_delta_of_some rd hm⟩
  · rw [heq, magicOf_self _ htb] at hm
    exact (Option.some_inj.1 hm).symm
  · rw [hzero] at hm
    exact magicOf_zero hm

end Sys2Proof.Proofs
end

section
/-! PROOFS. The table of offsets (R154), and DERIVE's checks in the order of R186. -/

namespace Sys2Proof.Machine

open Sys2Proof.Spec

theorem resolveOffset_eq_none {off : Int} {L : Nat} : resolveOffset off L = none ↔
    off ≠ -1 ∧ ¬(0 ≤ off ∧ off ≤ (L : Int) - 4) ∧ ¬(-(L : Int) ≤ off ∧ off ≤ -4) := by
  unfold resolveOffset
  split_ifs <;> simp_all

/-- R154: an offset in place counts from the start or from the end of the stream. -/
theorem resolveOffset_of_room {off : Int} {L ro : Nat} (hroom : ro + 4 ≤ L) (h : off = ro ∨ off = (ro : Int) - L) :
    resolveOffset off L = some (.inPlace ro) := by
  rcases h with rfl | rfl
  · rw [resolveOffset, if_neg (by omega), if_pos (by omega), Int.toNat_natCast]
  · rw [resolveOffset, if_neg (by omega), if_neg (by omega), if_pos (by omega), add_sub_cancel, Int.toNat_natCast]

/-- The offset check of deriveFirstError is that of R154. -/
theorem offset_rejected_iff (off : Int) (L : Nat) :
    (!(off == -1 || decide (0 ≤ off ∧ off ≤ (L : Int) - 4) || decide (-(L : Int) ≤ off ∧ off ≤ -4))) =
      (resolveOffset off L).isNone := by
  rw [Bool.eq_iff_iff, Option.isNone_iff_eq_none, resolveOffset_eq_none]
  simp only [Bool.not_eq_true', Bool.or_eq_false_iff, beq_eq_false_iff_ne, decide_eq_false_iff_not, and_assoc, ne_eq]

/-- R186: the statements' list of checks reports what the checks of R153 report. -/
theorem deriveFirstError_cases (s : State) (off : Int) :
    (∃ c, deriveFirstError s off = some c ∧ deriveCheck off s = .error c) ∨
    (deriveFirstError s off = none ∧ ∃ mode, deriveCheck off s = .ok mode) := by
  simp only [deriveFirstError, offset_rejected_iff, deriveCheck]
  by_cases hpresent : s.scap.present = false
  · exact .inl ⟨.preNull, by simp [hpresent]⟩
  by_cases hempty : s.slen.toNat = 0
  · exact .inl ⟨.preEmpty, by simp [hpresent, hempty]⟩
  cases hres : resolveOffset off s.slen.toNat with
  | none => exact .inl ⟨.preOffset, by simp [hpresent, hempty]⟩
  | some mode =>
    by_cases hrange : s.cfg.streamCap < s.slen.toNat
    · exact .inl ⟨.ioRange, by simp [hpresent, hempty, hrange]⟩
    by_cases hseek : s.scap.seek = false
    · exact .inl ⟨.ioNoseek, by simp [hpresent, hempty, hrange, hseek]⟩
    by_cases hread : s.scap.read = false
    · exact .inl ⟨.ioNoread, by simp [hpresent, hempty, hrange, hseek, hread]⟩
    cases mode with
    | inPlace ro =>
      obtain ⟨hoff, -⟩ := resolveOffset_inPlace hres
      exact .inr (by simp [hpresent, hempty, hrange, hseek, hread, hoff])
    | append =>
      have hoff := resolveOffset_append.1 hres
      by_cases hwrite : s.scap.write = false
      · exact .inl ⟨.ioNowrite, by simp [hpresent, hempty, hrange, hseek, hread, hoff, hwrite]⟩
      by_cases hcapacity : s.cfg.streamCap < s.slen.toNat + 4
      · exact .inl ⟨.ioCapacity, by simp [hpresent, hempty, hrange, hseek, hread, hoff, hwrite, hcapacity]⟩
      · exact .inr (by simp [hpresent, hempty, hrange, hseek, hread, hoff, hwrite, hcapacity])

/-! What a failed check leaves (R155, first row). -/

/-- R183: DERIVE's errors leave the state it was issued on, but for STATUS. -/
theorem State.deriveIssued_raise (s : State) (rs1 rs2 : Reg) (c : Cause) :
    (s.deriveIssued rs1 rs2).raise 0x31 c = failed (issued s rs2) [rs1, rs2] 0x31 c := by
  rw [State.deriveIssued_eq]; rfl

theorem exec_derive_of_error {rs2 : Reg} {s : State} {c : Cause} (rd rx rs1 : Reg)
    (h : deriveCheck s.p[rs2.val].toInt s = .error c) :
    exec (.derive rd rx rs1 rs2) s = .next (failed (issued s rs2) [rs1, rs2] 0x31 c) := by
  rcases execDerive_cases rd rx rs1 rs2 s with ⟨c', hc, heq⟩ | ⟨ro, hc, -⟩ | ⟨hc, -⟩ | ⟨hc, -⟩ <;> cases hc.symm.trans h
  exact heq.trans (congrArg _ (s.deriveIssued_raise rs1 rs2 c))

end Sys2Proof.Machine

namespace Sys2Proof.Proofs

open Sys2Proof.Machine Sys2Proof.Spec

/-- Settles O49: the accepted offsets leave room for four bytes, and every offset that leaves room resolves to its place. -/
theorem offsetsResolve : Obligations.OffsetsResolve := by
  unfold Obligations.OffsetsResolve
  intro off L _
  refine ⟨fun happend => resolveOffset_append.2 happend, fun hlo hhi => ⟨off.toNat, by omega, ?_⟩,
    fun hlo hhi => ⟨((L : Int) + off).toNat, by omega, ?_⟩,
    fun hne hstart hend => resolveOffset_eq_none.2 ⟨hne, hstart, hend⟩,
    fun ro hres hL => ?_⟩
  · exact resolveOffset_of_room (by omega) (.inl (by omega))
  · exact resolveOffset_of_room (by omega) (.inr (by omega))
  · obtain ⟨-, hroom, -⟩ := resolveOffset_inPlace hres
    omega

/-- Settles O50: the first check that fails is the one DERIVE's own checks report. -/
theorem deriveChecksInOrder : Obligations.DeriveChecksInOrder := by
  unfold Obligations.DeriveChecksInOrder
  intro rd rx rs1 rs2 s c hfirst
  rcases deriveFirstError_cases s s.p[rs2.val].toInt with ⟨c', hc, hcheck⟩ | ⟨hnone, -⟩
  · cases hc.symm.trans hfirst
    exact exec_derive_of_error rd rx rs1 hcheck
  · cases hnone.symm.trans hfirst

end Sys2Proof.Proofs
end

section
/-! PROOFS. DERIVE once its checks pass (R153 to R155): in place it works on the state as it stands, in append mode on the
state with four zero bytes appended; either way a read faults, or the magic delta of that stream is left. -/

namespace Sys2Proof.Machine

open Sys2Proof.Spec

/-! The extended stream (R54). -/

theorem State.streamBytes_add (s : State) (a n k : Nat) :
    s.streamBytes a (n + k) = s.streamBytes a n ++ s.streamBytes (a + n) k := by
  induction n generalizing a with
  | zero => simp [State.streamBytes]
  | succ n ih =>
    rw [Nat.succ_add, State.streamBytes, State.streamBytes, ih, List.cons_append, Nat.add_right_comm, Nat.add_assoc]

/-- R54: the append leaves four zero bytes past the end, and every other byte as it was. -/
theorem State.streamByte_appended (s : State) (a : Nat) :
    s.appended.streamByte a = if s.slen.toNat ≤ a ∧ a < s.slen.toNat + 4 then 0 else s.streamByte a := by
  show (s.setStream (s.stream.writeBytes s.slen.toNat [0, 0, 0, 0])).streamByte a = _
  split
  next h =>
    obtain ⟨k, rfl⟩ := Nat.exists_eq_add_of_le h.1
    have hk : k < 4 := by omega
    refine (State.streamByte_writeBytes_inside s _ k [0, 0, 0, 0] hk).trans ?_
    interval_cases k <;> rfl
  next h => exact State.streamByte_writeBytes_outside s _ a _ (by simp; omega)

theorem State.streamContents_appended {s : State} (hcfg : s.cfg.wf) (hroom : s.slen.toNat + 4 ≤ s.cfg.streamCap) :
    s.appended.streamContents = s.streamContents ++ [0, 0, 0, 0] := by
  rw [State.streamContents, State.appended_slen_toNat hcfg hroom, State.streamBytes_add, Nat.zero_add]
  congr 1
  · exact State.streamBytes_congr 0 _ fun a _ ha => by rw [State.streamByte_appended, if_neg (by omega)]
  · simp only [State.streamBytes, State.streamByte_appended]
    simp [Nat.add_assoc]

/-- R54: the burst faults when one of its four writes does. -/
theorem appendFaults_iff {c : Config} {a : Nat} :
    appendFaults c a = true ↔ ∃ x, a ≤ x ∧ x < a + 4 ∧ portFault c .write x = true := by
  simp only [appendFaults, Bool.or_eq_true]
  constructor
  · rintro (((h | h) | h) | h)
    · exact ⟨a, by omega, by omega, h⟩
    · exact ⟨a + 1, by omega, by omega, h⟩
    · exact ⟨a + 2, by omega, by omega, h⟩
    · exact ⟨a + 3, by omega, by omega, h⟩
  · rintro ⟨x, hlo, hhi, h⟩
    obtain ⟨k, rfl⟩ := Nat.exists_eq_add_of_le hlo
    have hk : k < 4 := by omega
    interval_cases k <;> simp_all

theorem appendFaults_of_no_fault {c : Config} {a : Nat} (h : ∀ x, a ≤ x → x < a + 4 → portFault c .write x = false) :
    appendFaults c a = false := by
  rw [← Bool.not_eq_true, appendFaults_iff]
  rintro ⟨x, hlo, hhi, hfault⟩
  cases (h x hlo hhi).symm.trans hfault

/-- The append and the model's own fields of an issued DERIVE do not meet. -/
theorem State.appended_deriveIssued (s : State) (rs1 rs2 : Reg) :
    (s.deriveIssued rs1 rs2).appended = s.appended.deriveIssued rs1 rs2 := by
  rw [State.deriveIssued_eq, State.deriveIssued_eq]; rfl

/-! The read of the stream and the magic delta. -/

/-- The two ends of a DERIVE that has passed its checks and works on a stream of a length R7 allows. -/
theorem deriveFrom_issued_cases (s : State) (rd rx rs1 rs2 : Reg) (des : Word) (ro : Nat) (hlen : s.slen.toNat ≤ 2 ^ 60) :
    ((∃ a < s.slen.toNat, portFault s.cfg .read a = true) ∧
      deriveFrom 0x31 rd rx des ro (s.deriveIssued rs1 rs2) = failed (issued s rs2) [rs1, rs2] 0x31 .ioPort) ∨
    ((∀ a < s.slen.toNat, portFault s.cfg .read a = false) ∧
      ∃ m, magicOf (crc32 s.streamContents) des ((s.slen.toNat - ro) * 8) = some m ∧
        deriveFrom 0x31 rd rx des ro (s.deriveIssued rs1 rs2) = derived s rd rx rs1 rs2 s.streamContents m ro) := by
  have htb : (s.slen.toNat - ro) * 8 < 2 ^ 64 := by omega
  have hbytes : (s.deriveIssued rs1 rs2).streamBytes 0 s.slen.toNat = s.streamContents :=
    State.streamBytes_of_stream_eq (by simp) ..
  rcases deriveFrom_cases 0x31 rd rx des ro (s.deriveIssued rs1 rs2) with
    ⟨hnone, heq⟩ | ⟨r, hsome, ⟨hnomagic, -⟩ | ⟨m, hm, heq⟩⟩
  · obtain ⟨a, -, hlt, hport⟩ := (State.foldStream_eq_none ..).1 hnone
    exact .inl ⟨⟨a, by simpa using hlt, by simpa using hport⟩, heq.trans (s.deriveIssued_raise rs1 rs2 .ioPort)⟩
  · obtain ⟨m, hm⟩ := exists_magicOf_eq_some (r ^^^ crcXorOut) des htb
    rw [State.deriveIssued_slen, hm] at hnomagic
    cases hnomagic
  · obtain ⟨hport, rfl⟩ := (State.foldStream_eq_some ..).1 hsome
    simp only [State.deriveIssued_slen, State.deriveIssued_cfg, hbytes] at hport hm heq
    refine .inr ⟨fun a ha => hport a (Nat.zero_le a) (by omega), m, hm, heq.trans ?_⟩
    rw [State.deriveIssued_eq]; rfl

/-! DERIVE, by the outcome of its checks. -/

section
variable {rs2 : Reg} {s : State} (rd rx rs1 : Reg)

theorem exec_derive_inPlace {ro : Nat} (h : deriveCheck s.p[rs2.val].toInt s = .ok (.inPlace ro)) :
    exec (.derive rd rx rs1 rs2) s =
      .next (deriveFrom 0x31 rd rx (s.p[rs1.val].setWidth 32) ro (s.deriveIssued rs1 rs2)) := by
  rcases execDerive_cases rd rx rs1 rs2 s with ⟨c, hc, -⟩ | ⟨ro', hc, heq⟩ | ⟨hc, -⟩ | ⟨hc, -⟩ <;> cases hc.symm.trans h
  exact heq

theorem exec_derive_append (h : deriveCheck s.p[rs2.val].toInt s = .ok .append)
    (hwrite : appendFaults s.cfg s.slen.toNat = false) : exec (.derive rd rx rs1 rs2) s =
      .next (deriveFrom 0x31 rd rx (s.p[rs1.val].setWidth 32) s.slen.toNat (s.appended.deriveIssued rs1 rs2)) := by
  rcases execDerive_cases rd rx rs1 rs2 s with ⟨c, hc, -⟩ | ⟨ro, hc, -⟩ | ⟨hc, hfault, -⟩ | ⟨hc, -, heq⟩ <;>
    cases hc.symm.trans h
  · cases hwrite.symm.trans hfault
  · exact s.appended_deriveIssued rs1 rs2 ▸ heq

theorem exec_derive_burst (h : deriveCheck s.p[rs2.val].toInt s = .ok .append)
    (hwrite : appendFaults s.cfg s.slen.toNat = true) : exec (.derive rd rx rs1 rs2) s =
      .next { failed (issued s rs2) [rs1, rs2] 0x31 .ioPort with
        stream := s.stream.writeBytes s.slen.toNat (anyFourBytes s.draws)
        draws := s.draws + 4 } := by
  rcases execDerive_cases rd rx rs1 rs2 s with ⟨c, hc, -⟩ | ⟨ro, hc, -⟩ | ⟨hc, -, heq⟩ | ⟨hc, hnone, -⟩ <;>
    cases hc.symm.trans h
  · exact heq.trans (by rw [State.deriveIssued_eq]; rfl)
  · cases hwrite.symm.trans hnone
end

theorem deriveCheck_of_inPlace {off : Int} {s : State} {ro : Nat} (hpresent : s.scap.present = true)
    (hread : s.scap.read = true) (hseek : s.scap.seek = true) (hcap : s.slen.toNat ≤ s.cfg.streamCap)
    (hroom : ro + 4 ≤ s.slen.toNat) (hoff : off = ro ∨ off = (ro : Int) - s.slen.toNat) :
    deriveCheck off s = .ok (.inPlace ro) := by
  simp [deriveCheck, resolveOffset_of_room hroom hoff, hpresent, hread, hseek, hcap.not_gt, show s.slen.toNat ≠ 0 by omega]

theorem deriveCheck_of_append {s : State} (hpresent : s.scap.present = true) (hread : s.scap.read = true)
    (hwrite : s.scap.write = true) (hseek : s.scap.seek = true) (hne : s.slen.toNat ≠ 0)
    (hroom : s.slen.toNat + 4 ≤ s.cfg.streamCap) : deriveCheck (-1) s = .ok .append := by
  have hcap : s.slen.toNat ≤ s.cfg.streamCap := by omega
  simp [deriveCheck, resolveOffset_append.2, hpresent, hread, hwrite, hseek, hcap.not_gt, hroom.not_gt, hne]

end Sys2Proof.Machine

namespace Sys2Proof.Proofs

open Sys2Proof.Machine Sys2Proof.Spec

/-- Settles O51: the checks pass, and DERIVE works on the stream as it stands, no read of which faults. -/
theorem deriveInPlaceResult : Obligations.DeriveInPlaceResult := by
  unfold Obligations.DeriveInPlaceResult
  intro rd rx rs1 rs2 s ro hpresent hread hseek hcap hroom hoff hport hlen
  have hexec := exec_derive_inPlace rd rx rs1 (deriveCheck_of_inPlace hpresent hread hseek hcap hroom hoff)
  rcases deriveFrom_issued_cases s rd rx rs1 rs2 (s.p[rs1.val].setWidth 32) ro hlen with
    ⟨⟨a, ha, hfault⟩, -⟩ | ⟨-, m, hm, heq⟩
  · cases (hport a ha).symm.trans hfault
  · exact ⟨m, magicOf_reduced hm, hm, hexec.trans (congrArg _ heq)⟩

/-- Settles O52: the checks pass and the burst does not fault, so DERIVE works on the extended stream. -/
theorem deriveAppendResult : Obligations.DeriveAppendResult := by
  unfold Obligations.DeriveAppendResult
  intro rd rx rs1 rs2 s hcfg hpresent hread hwrite hseek hne hroom hoff hburst hport
  have hlen := State.appended_slen_toNat hcfg hroom
  have hcheck := deriveCheck_of_append hpresent hread hwrite hseek (by omega) hroom
  have hexec := exec_derive_append rd rx rs1 (hoff ▸ hcheck) (appendFaults_of_no_fault hburst)
  rcases deriveFrom_issued_cases s.appended rd rx rs1 rs2 (s.p[rs1.val].setWidth 32) s.slen.toNat
    (hlen.trans_le (hroom.trans hcfg.2)) with ⟨⟨a, ha, hfault⟩, -⟩ | ⟨-, m, hm, heq⟩
  · cases (hport a (by omega)).symm.trans hfault
  · rw [hlen, Nat.add_sub_cancel_left, State.streamContents_appended hcfg hroom] at hm
    rw [State.streamContents_appended hcfg hroom] at heq
    exact ⟨m, _, magicOf_reduced hm, hm, hexec.trans (congrArg _ heq), rfl, hlen, s.streamByte_appended⟩

/-- Settles O53: in append mode the burst faults, or the extended stream has a byte that faults when read; in place the stream
as it stands has one. -/
theorem derivePortFaultLeaves : Obligations.DerivePortFaultLeaves := by
  unfold Obligations.DerivePortFaultLeaves
  intro rd rx rs1 rs2 s hcfg hfirst
  obtain ⟨mode, hcheck⟩ : ∃ mode, deriveCheck s.p[rs2.val].toInt s = .ok mode := by
    rcases deriveFirstError_cases s s.p[rs2.val].toInt with ⟨c, hc, -⟩ | ⟨-, h⟩
    · cases hc.symm.trans hfirst
    · exact h
  cases mode with
  | append =>
    obtain ⟨hoff, hroom⟩ := deriveCheck_append hcheck
    refine ⟨fun _ hburst => ?_, fun hne => absurd hoff hne, fun _ hburst hread => ?_⟩
    · exact ⟨_, exec_derive_burst rd rx rs1 hcheck (appendFaults_iff.2 hburst), rfl, fun a ha =>
        State.streamByte_writeBytes_outside s _ a (anyFourBytes s.draws) ha⟩
    · have hexec := exec_derive_append rd rx rs1 hcheck (appendFaults_of_no_fault hburst)
      have hlen := State.appended_slen_toNat hcfg hroom
      rcases deriveFrom_issued_cases s.appended rd rx rs1 rs2 (s.p[rs1.val].setWidth 32) s.slen.toNat
        (hlen.trans_le (hroom.trans hcfg.2)) with ⟨-, heq⟩ | ⟨hport, -⟩
      · exact ⟨_, hexec.trans (congrArg _ heq), rfl, hlen, s.streamByte_appended⟩
      · obtain ⟨a, ha, hfault⟩ := hread
        cases (hport a (ha.trans_eq hlen.symm)).symm.trans hfault
  | inPlace ro =>
    obtain ⟨-, -, hres, hcap, -⟩ := deriveCheck_ok hcheck
    obtain ⟨hne, -⟩ := resolveOffset_inPlace hres
    refine ⟨fun hoff => absurd hoff hne, fun _ hread => ?_, fun hoff => absurd hoff hne⟩
    rcases deriveFrom_issued_cases s rd rx rs1 rs2 (s.p[rs1.val].setWidth 32) ro (hcap.trans hcfg.2) with
      ⟨-, heq⟩ | ⟨hport, -⟩
    · exact (exec_derive_inPlace rd rx rs1 hcheck).trans (congrArg _ heq)
    · obtain ⟨a, ha, hfault⟩ := hread
      cases (hport a ha).symm.trans hfault

end Sys2Proof.Proofs
end

section
/-! PROOFS. What a DERIVE that succeeds has left (R153, R156, R164), by name, and that every other one leaves an error. -/

namespace Sys2Proof.Machine

open Sys2Proof.Spec

/-- R153, R154: the stream that a DERIVE issued on s derives for, and the offset it resolves: the stream as it stands, or the
extended one and its old length. -/
inductive DerivesFor (s : State) (rs2 : Reg) : State → Nat → Prop
  | inPlace {ro : Nat} (hoff : s.p[rs2.val].toInt ≠ -1) (hroom : ro + 4 ≤ s.slen.toNat)
      (hlen : s.slen.toNat ≤ 2 ^ 60) : DerivesFor s rs2 s ro
  | append (hoff : s.p[rs2.val].toInt = -1) (hlen : s.appended.slen.toNat = s.slen.toNat + 4)
      (hcap : s.slen.toNat + 4 ≤ 2 ^ 60) : DerivesFor s rs2 s.appended s.slen.toNat

/-- A DERIVE records an error and leaves no magic delta of its own, or it leaves the magic delta of the stream it derives
for. -/
theorem exec_derive_outcome {rd rx rs1 rs2 : Reg} {s t : State} (hcfg : s.cfg.wf)
    (h : exec (.derive rd rx rs1 rs2) s = .next t) :
    (t.status.err ≠ 0 ∧ t.derivations = (issued s rs2).derivations) ∨
    ∃ u ro m, DerivesFor s rs2 u ro ∧
      magicOf (crc32 u.streamContents) (s.p[rs1.val].setWidth 32) ((u.slen.toNat - ro) * 8) = some m ∧
      t = derived u rd rx rs1 rs2 u.streamContents m ro := by
  have hraises (c : Cause) : (failed (issued s rs2) [rs1, rs2] 0x31 c).status.err ≠ 0 := c.kind.code_ne_zero
  cases hcheck : deriveCheck s.p[rs2.val].toInt s with
  | error c =>
    cases (exec_derive_of_error rd rx rs1 hcheck).symm.trans h
    exact .inl ⟨hraises c, rfl⟩
  | ok mode =>
    cases mode with
    | inPlace ro =>
      obtain ⟨-, -, hres, hcap, -⟩ := deriveCheck_ok hcheck
      obtain ⟨hoff, hroom, -⟩ := resolveOffset_inPlace hres
      have hlen := hcap.trans hcfg.2
      cases (exec_derive_inPlace rd rx rs1 hcheck).symm.trans h
      rcases deriveFrom_issued_cases s rd rx rs1 rs2 (s.p[rs1.val].setWidth 32) ro hlen with ⟨-, heq⟩ | ⟨-, m, hm, heq⟩
      · exact .inl (heq ▸ ⟨hraises .ioPort, rfl⟩)
      · exact .inr ⟨s, ro, m, .inPlace hoff hroom hlen, hm, heq⟩
    | append =>
      obtain ⟨hoff, hroom⟩ := deriveCheck_append hcheck
      have hcap := hroom.trans hcfg.2
      have hlen := State.appended_slen_toNat hcfg hroom
      cases hwrite : appendFaults s.cfg s.slen.toNat with
      | true =>
        cases (exec_derive_burst rd rx rs1 hcheck hwrite).symm.trans h
        exact .inl ⟨hraises .ioPort, rfl⟩
      | false =>
        cases (exec_derive_append rd rx rs1 hcheck hwrite).symm.trans h
        rcases deriveFrom_issued_cases s.appended rd rx rs1 rs2 (s.p[rs1.val].setWidth 32) s.slen.toNat
          (hlen.trans_le hcap) with ⟨-, heq⟩ | ⟨-, m, hm, heq⟩
        · exact .inl (heq ▸ ⟨hraises .ioPort, rfl⟩)
        · exact .inr ⟨s.appended, s.slen.toNat, m, .append hoff hlen hcap, hm, heq⟩

/-- What a DERIVE that succeeded has left in t: the magic delta m of the stream there, for the resolved offset ro. -/
structure LeavesMagic (s : State) (rd rx rs1 rs2 : Reg) (t : State) (m ro : Nat) : Prop where
  magic       : magicOf (crc32 t.streamContents) (s.p[rs1.val].setWidth 32) ((t.slen.toNat - ro) * 8) = some m
  checksum    : t.crcreg ^^^ 0xFFFFFFFF = crc32 t.streamContents
  offset      : t.p[rx.val] = BitVec.ofNat 64 ro
  destination : rd ≠ rx → t.p[rd.val] = BitVec.ofNat 64 m
  derivations : t.derivations = ⟨t.p[rx.val], patchWord m⟩ :: (issued s rs2).derivations
  status      : t.status = s.status
  room        : ro + 4 ≤ t.slen.toNat
  length      : t.slen.toNat ≤ 2 ^ 60
  inPlace     : s.p[rs2.val].toInt ≠ -1 → t.slen = s.slen ∧ t.stream = s.stream
  append      : s.p[rs2.val].toInt = -1 →
    ro = s.slen.toNat ∧ t.slen.toNat = s.slen.toNat + 4 ∧ t.stream = s.appended.stream

theorem streamContents_derived (u : State) (rd rx rs1 rs2 : Reg) (bytes : List Byte) (m ro : Nat) :
    (derived u rd rx rs1 rs2 bytes m ro).streamContents = u.streamContents :=
  State.streamContents_congr rfl rfl

theorem LeavesMagic.of_derived {s u : State} {rd rx rs1 rs2 : Reg} {m ro : Nat} (hu : DerivesFor s rs2 u ro)
    (hm : magicOf (crc32 u.streamContents) (s.p[rs1.val].setWidth 32) ((u.slen.toNat - ro) * 8) = some m) :
    LeavesMagic s rd rx rs1 rs2 (derived u rd rx rs1 rs2 u.streamContents m ro) m ro where
  magic := by rw [streamContents_derived]; exact hm
  checksum := by rw [streamContents_derived]; rfl
  offset := by simp [derived]
  destination hne := by
    have hne' : rx.val ≠ rd.val := fun h => hne (Fin.ext h.symm)
    simp [derived, hne']
  derivations := by
    have hissued : (issued u rs2).derivations = (issued s rs2).derivations := by cases hu <;> rfl
    simp [derived, hissued]
  status := by cases hu <;> rfl
  room := by
    cases hu with
    | inPlace _ hroom _ => exact hroom
    | append _ hlen _ => exact hlen.ge
  length := by
    cases hu with
    | inPlace _ _ hlen => exact hlen
    | append _ hlen hcap => exact hlen.trans_le hcap
  inPlace hne := by
    cases hu with
    | inPlace => exact ⟨rfl, rfl⟩
    | append hoff => exact absurd hoff hne
  append hoff := by
    cases hu with
    | inPlace hne => exact absurd hoff hne
    | append _ hlen _ => exact ⟨rfl, hlen, rfl⟩

/-- The inversion of a DERIVE. -/
theorem exec_derive_leaves {rd rx rs1 rs2 : Reg} {s t : State} (hcfg : s.cfg.wf)
    (h : exec (.derive rd rx rs1 rs2) s = .next t) :
    (t.status.err ≠ 0 ∧ t.derivations = (issued s rs2).derivations) ∨ ∃ m ro, LeavesMagic s rd rx rs1 rs2 t m ro := by
  rcases exec_derive_outcome hcfg h with hfails | ⟨u, ro, m, hu, hm, rfl⟩
  · exact .inl hfails
  · exact .inr ⟨m, ro, .of_derived hu hm⟩

theorem leavesMagic_of_deriveSucceeds {rd rx rs1 rs2 : Reg} {s t : State} (h : DeriveSucceeds s rd rx rs1 rs2 t) :
    ∃ m ro, LeavesMagic s rd rx rs1 rs2 t m ro := by
  obtain ⟨hcfg, -, hexec, herr⟩ := h
  exact (exec_derive_leaves hcfg hexec).resolve_left fun hfails => hfails.1 herr

/-! What the fields say together. -/

namespace LeavesMagic

variable {s t : State} {rd rx rs1 rs2 : Reg} {m ro : Nat}

theorem offset_toNat (h : LeavesMagic s rd rx rs1 rs2 t m ro) : t.p[rx.val].toNat = ro := by
  rw [h.offset, toNat_ofNat_of_lt (by have := h.room; have := h.length; omega)]

/-- R156: the tail bits fit a count. -/
theorem tailBits_lt (h : LeavesMagic s rd rx rs1 rs2 t m ro) : (t.slen.toNat - ro) * 8 < 2 ^ 64 := by
  have := h.length; omega

/-- R157: the magic delta as a host can have it computed again from what the DERIVE left. -/
theorem magic_of_registers (h : LeavesMagic s rd rx rs1 rs2 t m ro) :
    magicOf (t.crcreg ^^^ 0xFFFFFFFF) (s.p[rs1.val].setWidth 32) ((t.slen.toNat - t.p[rx.val].toNat) * 8) = some m := by
  rw [h.checksum, h.offset_toNat]; exact h.magic

theorem reduced (h : LeavesMagic s rd rx rs1 rs2 t m ro) : Reduced m := magicOf_reduced h.magic

theorem magic_toNat (h : LeavesMagic s rd rx rs1 rs2 t m ro) : (BitVec.ofNat 64 m).toNat = m :=
  toNat_ofNat_of_lt (h.reduced.trans (by decide))

end LeavesMagic

end Sys2Proof.Machine

namespace Sys2Proof.Proofs

open Sys2Proof.Machine Sys2Proof.Spec

/-- Settles O54: DELTA writes magicOf of its three values, and these are the ones DERIVE's magic delta was made from. -/
theorem deltaReproducesDerive : Obligations.DeltaReproducesDerive := by
  unfold Obligations.DeltaReproducesDerive
  intro rd rx rs1 rs2 s t h
  obtain ⟨m, ro, hleaves⟩ := leavesMagic_of_deriveSucceeds h
  refine ⟨BitVec.ofNat 64 m, hleaves.destination, hleaves.magic_toNat.trans_lt hleaves.reduced, ?_⟩
  intro d a b c u hcur hdes hbits
  refine exec_delta_of_some d ?_
  rw [hcur, hdes, hbits, hleaves.magic_of_registers]

end Sys2Proof.Proofs
end

section
/-! PROOFS. Which magic deltas are good (R164): the host's patch has a move with these only, and what ends them. -/

namespace Sys2Proof.Machine

open Sys2Proof.Spec

theorem step_of_idle_patch {s : State} {ro : DWord} {w : Word} {rest : List Input} (hidle : Idle s)
    (h : s.inputs = .patch ro w :: rest) : step s = (s.setInputs rest).patchStream ro w := by
  obtain ⟨hnone, hheld⟩ := hidle
  rw [step_idle hheld hnone, stepIdle, h]

theorem step_of_idle_streamWrite {s : State} {a : DWord} {b : Byte} {rest : List Input} (hidle : Idle s)
    (h : s.inputs = .streamWrite a b :: rest) (ha : a.toNat < s.cfg.streamCap) :
    step s = .next ((s.setInputs rest).storeStream a.toNat b) := by
  obtain ⟨hnone, hheld⟩ := hidle
  rw [step_idle hheld hnone, stepIdle, h]
  exact if_pos ha

theorem step_of_idle_assertReset {s : State} {rest : List Input} (hidle : Idle s) (h : s.inputs = .assertReset :: rest) :
    step s = .next (s.setInputs rest).assertReset := by
  obtain ⟨hnone, hheld⟩ := hidle
  rw [step_idle hheld hnone, stepIdle, h]

/-- R164: no command but DERIVE touches the stream or a magic delta. -/
theorem Computes.derivations_eq {op : BitVec 8} {s t : State} (h : Computes op s t) : t.derivations = s.derivations := by
  cases h with
  | writes => rfl
  | fails => rfl

end Sys2Proof.Machine

namespace Sys2Proof.Proofs

open Sys2Proof.Machine Sys2Proof.Spec

/-- Settles O60: the patch is made with a magic delta that is held, or refused; each host action that ends them leaves the list
empty; of the commands only DERIVE writes it. -/
theorem staleMagicHasNoMove : Obligations.StaleMagicHasNoMove := by
  unfold Obligations.StaleMagicHasNoMove
  refine ⟨fun s ro w rest hidle hin => ?_, fun s a rest hidle hin hends => ?_, fun i s t hi h => ?_,
    fun rd rx rs1 rs2 s t hcfg herr h => ?_⟩
  · rw [step_of_idle_patch hidle hin]
    rcases (s.setInputs rest).patchStream_cases ro w with ⟨hgood, heq⟩ | ⟨hstale, heq⟩
    · exact ⟨fun _ => heq, fun hstale => absurd hgood hstale⟩
    · exact ⟨fun hgood => absurd hgood hstale, fun _ => heq⟩
  · rcases hends with ⟨x, b, rfl, hbelow, hcap⟩ | ⟨v, rfl, hchanged⟩ | rfl
    · refine ⟨_, step_of_idle_streamWrite hidle hin hcap, ?_⟩
      rw [State.storeStream_eq]; exact if_pos hbelow
    · refine ⟨_, (step_of_idle_windowWrite hidle hin).trans (congrArg _ (State.writeSlen_eq _ v)), ?_⟩
      exact if_neg hchanged
    · exact ⟨_, step_of_idle_assertReset hidle hin, rfl⟩
  · rcases exec_cases h with hcomputes | ⟨rd, rx, rs1, rs2, rfl, -⟩
    · exact hcomputes.derivations_eq
    · exact absurd rfl (hi rd rx rs1 rs2)
  · rcases exec_derive_leaves hcfg h with ⟨hfails, hnone⟩ | ⟨m, ro, hleaves⟩
    · exact ⟨fun _ => hnone, fun hok => absurd hok hfails⟩
    · exact ⟨fun hne => absurd (hleaves.status ▸ herr) hne, fun _ => ⟨m, hleaves.magic_of_registers, hleaves.derivations⟩⟩

end Sys2Proof.Proofs
end

section
/-! PROOFS. The patch boundary (R160): the four bytes the host's patch leaves, made as one store or as four stream writes. -/

namespace Sys2Proof.Machine

open Sys2Proof.Spec

/-- R160: byte ro + k takes byte k of the patch word, every other byte stays. -/
theorem State.streamByte_hostPatch (s : State) (ro : Nat) (w : Word) (a : Nat) :
    (s.hostPatch ro w).streamByte a =
      if ro ≤ a ∧ a < ro + 4 then s.streamByte a ^^^ patchByte w (a - ro) else s.streamByte a := by
  split
  next h =>
    obtain ⟨k, rfl⟩ := Nat.exists_eq_add_of_le h.1
    have hk : k < 4 := by omega
    refine (State.streamByte_writeBytes_inside s ro k (s.patchedBytes ro w) hk).trans ?_
    rw [Nat.add_sub_cancel_left]
    interval_cases k <;> rfl
  next h => exact State.streamByte_writeBytes_outside s ro a (s.patchedBytes ro w) (by simp [State.patchedBytes]; omega)

/-- R160: the patch word 0 is no patch. -/
theorem State.streamByte_hostPatch_zero (s : State) (ro a : Nat) : (s.hostPatch ro 0).streamByte a = s.streamByte a := by
  rw [State.streamByte_hostPatch]
  split
  · simp [patchByte]
  · rfl

theorem patchWord_zero : patchWord 0 = 0 := by decide +kernel

theorem run_succ_of_step {s t : State} (n : Nat) (h : step s = .next t) :
    Host.Core.run Sys2Proof.core (n + 1) s = Host.Core.run Sys2Proof.core n t := by
  have hstep : Sys2Proof.core.step s = .next t := h
  exact (Host.Core.run.eq_def ..).trans (by simp only [hstep])

/-- R174: the host's writes of consecutive bytes, the first at a, each in one step. -/
theorem run_placeBytes (bytes : List Byte) {s : State} {a : Nat} {rest : List Input} (hidle : Idle s)
    (hcfg : s.cfg.wf) (hcap : a + bytes.length ≤ s.cfg.streamCap) (hin : s.inputs = placeBytes a bytes ++ rest) :
    Host.Core.run Sys2Proof.core bytes.length s = .next { s with
      inputs := rest
      stream := s.stream.writeBytes a bytes
      derivations := if a < s.slen.toNat ∧ bytes ≠ [] then [] else s.derivations } := by
  induction bytes generalizing s a with
  | nil =>
    obtain rfl : s.inputs = rest := hin
    simp [Host.Core.run, Memory.writeBytes]
  | cons b bytes ih =>
    rw [List.length_cons] at hcap ⊢
    have ha : (BitVec.ofNat 64 a).toNat = a := toNat_ofNat_of_lt (by have := hcfg.2; omega)
    have hstep := step_of_idle_streamWrite hidle (rest := placeBytes (a + 1) bytes ++ rest) hin (by omega)
    rw [ha, State.storeStream_eq] at hstep
    rw [run_succ_of_step bytes.length hstep, ih (a := a + 1)]
    · congr 2
      by_cases hbelow : a < s.slen.toNat
      · simp [hbelow]
      · simp [hbelow, show ¬ a + 1 < s.slen.toNat by omega]
    · exact hidle
    · exact hcfg
    · show a + 1 + bytes.length ≤ s.cfg.streamCap
      omega
    · rfl

end Sys2Proof.Machine

namespace Sys2Proof.Proofs

open Sys2Proof.Machine Sys2Proof.Spec

/-- Settles O55: the four writes are those of the bytes hostPatch leaves. -/
theorem hostPatchWritesFourBytes : Obligations.HostPatchWritesFourBytes := by
  unfold Obligations.HostPatchWritesFourBytes
  intro s ro w rest hcfg hidle hcap hin
  have hrun := run_placeBytes (s.patchedBytes ro w) hidle hcfg hcap hin
  refine ⟨_, hrun, ?_, fun k hk => ?_, fun a ha => ?_, fun a => rfl⟩
  · simp [State.patchedBytes]
  · exact (s.streamByte_hostPatch ro w (ro + k)).trans (by simp [hk, patchByte])
  · exact (s.streamByte_hostPatch ro w a).trans (if_neg (by omega))

/-- Settles O57: the magic delta of a stream that has the desired checksum is 0; DERIVE changes the four bytes it appends, the
patch the four at the resolved offset, and in append mode these are the same. -/
theorem patchIsLocalAndIdempotent : Obligations.PatchIsLocalAndIdempotent := by
  unfold Obligations.PatchIsLocalAndIdempotent
  intro rd rx rs1 rs2 s t h
  obtain ⟨m, ro, hleaves⟩ := leavesMagic_of_deriveSucceeds h
  refine ⟨fun hdone => ⟨fun hne => ?_, fun a => ?_⟩, fun hplace w a ha => ?_, fun happend => ?_⟩
  · have hzero : some m = some 0 := by
      rw [← hleaves.magic, ← hdone, magicOf_self _ hleaves.tailBits_lt]
    rw [hleaves.destination hne, Option.some_inj.1 hzero]
    rfl
  · rw [patchWord_zero, State.streamByte_hostPatch_zero]
  · rw [State.streamByte_hostPatch, if_neg (by omega)]
    exact State.streamByte_congr (hleaves.inPlace hplace).2 a
  · obtain ⟨hro, hlen, hstream⟩ := hleaves.append happend
    have hoffset := hleaves.offset_toNat.trans hro
    refine ⟨BitVec.eq_of_toNat_eq hoffset, by rw [hoffset, hlen], fun w a ha => ?_⟩
    rw [State.streamByte_hostPatch, if_neg (by omega), State.streamByte_congr hstream, State.streamByte_appended,
      if_neg (by omega)]

end Sys2Proof.Proofs
end

section
/-! PROOFS. The round trip (R161): patching four bytes adds the magic delta, moved up by the tail bits, to the message polynomial,
and so the raw delta to the reversed checksum. -/

namespace Sys2Proof.Machine

open Sys2Proof.Spec

/-! The patched message. -/

@[simp] theorem State.length_streamContents (s : State) : s.streamContents.length = s.slen.toNat :=
  s.length_streamBytes 0 _

theorem messageBit_streamContents (s : State) {t : Nat} (h : t < 8 * s.slen.toNat) :
    messageBit s.streamContents t = (s.streamByte (t / 8)).getLsbD (t % 8) := by
  have hbyte : t / 8 < s.streamContents.length := by rw [State.length_streamContents]; omega
  rw [messageBit, List.getD_eq_getElem _ _ hbyte]
  simp only [State.streamContents, State.getElem_streamBytes, Nat.zero_add]

theorem getLsbD_patchByte (w : Word) (k : Nat) {j : Nat} (h : j < 8) :
    (patchByte w k).getLsbD j = w.getLsbD (8 * k + j) := by
  simp [patchByte, h]

/-- R160: the patch word's bits in the order of the message, from the first bit of byte ro. -/
theorem messageBit_hostPatch (s : State) (ro : Nat) (w : Word) {t : Nat} (h : t < 8 * s.slen.toNat) :
    messageBit (s.hostPatch ro w).streamContents t =
      (messageBit s.streamContents t ^^ (decide (8 * ro ≤ t ∧ t < 8 * ro + 32) && w.getLsbD (t - 8 * ro))) := by
  rw [messageBit_streamContents (s.hostPatch ro w) h, messageBit_streamContents s h, State.streamByte_hostPatch]
  by_cases hin : ro ≤ t / 8 ∧ t / 8 < ro + 4
  · rw [if_pos hin, BitVec.getLsbD_xor, getLsbD_patchByte _ _ (by omega),
      show 8 * (t / 8 - ro) + t % 8 = t - 8 * ro by omega]
    simp [show 8 * ro ≤ t ∧ t < 8 * ro + 32 by omega]
  · simp [hin, show ¬(8 * ro ≤ t ∧ t < 8 * ro + 32) by omega]

theorem getLsbD_patchWord (m : Nat) {i : Nat} (h : i < 32) : (patchWord m).getLsbD i = m.testBit (31 - i) := by
  rw [patchWord, getLsbD_rev32 _ i h, BitVec.getLsbD_ofNat]
  simp [show 31 - i < 32 by omega]

theorem testBit_of_reduced {m j : Nat} (hm : Reduced m) (hj : 32 ≤ j) : m.testBit j = false :=
  Nat.testBit_lt_two_pow (hm.trans_le (Nat.pow_le_pow_right (by decide) hj))

/-- R150, R160: in a message of N bytes, the reversed patch word, least significant byte first, has at byte ro the bits of the
magic delta moved up by what follows them. -/
theorem testBit_shiftLeft_magic {N ro m i : Nat} (hm : Reduced m) (hroom : ro + 4 ≤ N) (hi : i < 8 * N) :
    (m <<< (8 * (N - (ro + 4)))).testBit i =
      (decide (8 * ro ≤ 8 * N - 1 - i ∧ 8 * N - 1 - i < 8 * ro + 32) &&
        (patchWord m).getLsbD (8 * N - 1 - i - 8 * ro)) := by
  rw [Nat.testBit_shiftLeft]
  by_cases hin : 8 * ro ≤ 8 * N - 1 - i ∧ 8 * N - 1 - i < 8 * ro + 32
  · rw [getLsbD_patchWord _ (by omega), show 31 - (8 * N - 1 - i - 8 * ro) = i - 8 * (N - (ro + 4)) by omega]
    simp [hin, show 8 * (N - (ro + 4)) ≤ i by omega]
  · rw [decide_eq_false hin, Bool.false_and]
    rcases Nat.lt_or_ge i (8 * (N - (ro + 4))) with hlow | hhigh
    · simp [hlow.not_ge]
    · rw [testBit_of_reduced hm (by omega), Bool.and_false]

theorem messagePoly_hostPatch (s : State) {ro m : Nat} (hm : Reduced m) (hroom : ro + 4 ≤ s.slen.toNat) :
    messagePoly s.streamContents ^^^ messagePoly (s.hostPatch ro (patchWord m)).streamContents =
      m <<< (8 * (s.slen.toNat - (ro + 4))) := by
  refine Nat.eq_of_testBit_eq fun i => ?_
  have hlength : (s.hostPatch ro (patchWord m)).streamContents.length = s.slen.toNat := State.length_streamContents _
  rw [Nat.testBit_xor, testBit_messagePoly, testBit_messagePoly, hlength, State.length_streamContents]
  by_cases hi : i < 8 * s.slen.toNat
  · rw [messageBit_hostPatch s ro _ (by omega), testBit_shiftLeft_magic hm hroom hi]
    simp only [hi, decide_true, Bool.true_and, ← Bool.xor_assoc, Bool.xor_self, Bool.false_xor]
  · rw [Nat.testBit_shiftLeft, testBit_of_reduced hm (by omega)]
    simp [hi]

theorem residue_shiftLeft (a n : Nat) : residue (a <<< n) = residue a * residue 2 ^ n := by
  induction n with
  | zero => simp
  | succ n ih => rw [Nat.shiftLeft_add, residue_shiftLeft_one, ih, pow_succ, mul_assoc]

/-- R108: the patch changes the reversed checksum by the magic delta times 2^tb, tb being the tail bits. -/
theorem rev32_crc32_hostPatch (s : State) {ro m : Nat} (hm : Reduced m) (hroom : ro + 4 ≤ s.slen.toNat)
    (htb : (s.slen.toNat - ro) * 8 < 2 ^ 64) :
    (rev32 (crc32 s.streamContents) ^^^ rev32 (crc32 (s.hostPatch ro (patchWord m)).streamContents)).toNat =
      mulmod m (powmod 2 ((s.slen.toNat - ro) * 8)) := by
  have hlength : s.streamContents.length = (s.hostPatch ro (patchWord m)).streamContents.length := by
    rw [State.length_streamContents, State.length_streamContents]; rfl
  rw [Proofs.checksumIsPolynomialRemainder.2 _ _ hlength, messagePoly_hostPatch s hm hroom, clmul_two_pow,
    ← Nat.shiftLeft_add, show 8 * (s.slen.toNat - (ro + 4)) + 32 = (s.slen.toNat - ro) * 8 by omega]
  refine eq_of_residue_eq (pmod_generator_reduced _) (mulmod_reduced ..) ?_
  rw [residue_pmod, residue_shiftLeft, residue_mulmod, residue_powmod 2 htb]

/-- R161: the magic delta patches the checksum to the desired one. -/
theorem crc32_hostPatch_of_magicOf (s : State) {des : Word} {ro m : Nat} (hroom : ro + 4 ≤ s.slen.toNat)
    (htb : (s.slen.toNat - ro) * 8 < 2 ^ 64)
    (h : magicOf (crc32 s.streamContents) des ((s.slen.toNat - ro) * 8) = some m) :
    crc32 (s.hostPatch ro (patchWord m)).streamContents = des := by
  have hdelta := rev32_crc32_hostPatch s (magicOf_reduced h) hroom htb
  rw [mulmod_magicOf htb h] at hdelta
  have hrev := (BitVec.xor_right_inj _).1 (BitVec.eq_of_toNat_eq hdelta)
  rw [← rev32_rev32 (crc32 _), hrev, rev32_rev32]

theorem LeavesMagic.crc32_hostPatch {s t : State} {rd rx rs1 rs2 : Reg} {m ro : Nat}
    (h : LeavesMagic s rd rx rs1 rs2 t m ro) :
    crc32 (t.hostPatch t.p[rx.val].toNat (patchWord m)).streamContents = s.p[rs1.val].setWidth 32 := by
  rw [h.offset_toNat]
  exact crc32_hostPatch_of_magicOf t h.room h.tailBits_lt h.magic

/-! The length of the stream (R163). -/

theorem deriveFrom_slen (op : BitVec 8) (rd rx : Reg) (des : Word) (ro : Nat) (s : State) :
    (deriveFrom op rd rx des ro s).slen = s.slen := by
  rcases deriveFrom_cases op rd rx des ro s with ⟨-, heq⟩ | ⟨r, -, ⟨-, heq⟩ | ⟨m, -, heq⟩⟩ <;> rw [heq] <;> rfl

/-- R163: no command shortens the stream. -/
theorem slen_le_of_exec {i : Instr} {s t : State} (hcfg : s.cfg.wf) (h : exec i s = .next t) :
    s.slen.toNat ≤ t.slen.toNat := by
  rcases exec_cases h with hcomputes | ⟨rd, rx, rs1, rs2, -, hderive⟩
  · cases hcomputes with
    | writes => exact le_rfl
    | fails => exact le_rfl
  · rcases execDerive_cases rd rx rs1 rs2 s with
      ⟨c, -, heq⟩ | ⟨ro, -, heq⟩ | ⟨-, -, heq⟩ | ⟨hcheck, -, heq⟩ <;> cases heq.symm.trans hderive
    · simp
    · rw [deriveFrom_slen, State.deriveIssued_slen]
    · simp
    · have hlen := State.appended_slen_toNat hcfg (deriveCheck_append hcheck).2
      rw [deriveFrom_slen, State.appended_deriveIssued, State.deriveIssued_slen, hlen]
      omega

end Sys2Proof.Machine

namespace Sys2Proof.Proofs

open Sys2Proof.Machine Sys2Proof.Spec

/-- Settles O56: the patch adds the raw delta to the reversed checksum. -/
theorem patchedStreamHasDesiredChecksum : Obligations.PatchedStreamHasDesiredChecksum := by
  unfold Obligations.PatchedStreamHasDesiredChecksum
  intro rd rx rs1 rs2 s t h
  obtain ⟨m, ro, hleaves⟩ := leavesMagic_of_deriveSucceeds h
  refine ⟨m, fun hne => ?_, hleaves.magic_of_registers, hleaves.crc32_hostPatch⟩
  rw [hleaves.destination hne, hleaves.magic_toNat]

/-- Settles O58: only the append moves SLEN, up by four, and the patched stream is O56's. -/
theorem streamGrowsByFourOrNot : Obligations.StreamGrowsByFourOrNot := by
  unfold Obligations.StreamGrowsByFourOrNot
  refine ⟨fun rd rx rs1 rs2 s t h => ?_, fun i s t => slen_le_of_exec⟩
  obtain ⟨m, ro, hleaves⟩ := leavesMagic_of_deriveSucceeds h
  refine ⟨fun happend => ⟨(hleaves.append happend).2.1, fun hne => ?_⟩, fun hplace => (hleaves.inPlace hplace).1⟩
  rw [hleaves.destination hne, hleaves.magic_toNat]
  exact hleaves.crc32_hostPatch

end Sys2Proof.Proofs
end

section
/-! PROOFS. What stops the machine (R50, R173, R175): a host access to its own stream memory outside the stream space, or a stale
patch, on a core that is idle or held in reset. -/

namespace Sys2Proof.Machine

open Sys2Proof.Spec

/-- R50, R175, log entries 9 and 10: the two ways a host action that comes next on s stops the machine. -/
def StopsOnStreamAction (s : State) (o : Host.Outcome State Fault Refusal) : Prop :=
  ∃ rest,
    (o = .fault .outsideStreamSpace ∧
      ∃ a, (s.inputs = .streamRead a :: rest ∨ ∃ b, s.inputs = .streamWrite a b :: rest) ∧ s.cfg.streamCap ≤ a.toNat) ∨
    (o = .refused .staleMagic ∧ ∃ ro w, s.inputs = .patch ro w :: rest ∧ ⟨ro, w⟩ ∉ s.derivations)

section
variable {s : State} {rest : List Input}

theorem hostStreamRead_next_or_stops {a : DWord} (h : s.inputs = .streamRead a :: rest) :
    (∃ t, (s.setInputs rest).hostStreamRead a = .next t) ∨
      StopsOnStreamAction s ((s.setInputs rest).hostStreamRead a) := by
  by_cases hcap : a.toNat < s.cfg.streamCap
  · exact .inl ⟨_, if_pos hcap⟩
  · exact .inr ⟨rest, .inl ⟨if_neg hcap, a, .inl h, Nat.le_of_not_lt hcap⟩⟩

theorem hostStreamWrite_next_or_stops {a : DWord} {b : Byte} (h : s.inputs = .streamWrite a b :: rest) :
    (∃ t, (s.setInputs rest).hostStreamWrite a b = .next t) ∨
      StopsOnStreamAction s ((s.setInputs rest).hostStreamWrite a b) := by
  by_cases hcap : a.toNat < s.cfg.streamCap
  · exact .inl ⟨_, if_pos hcap⟩
  · exact .inr ⟨rest, .inl ⟨if_neg hcap, a, .inr ⟨b, h⟩, Nat.le_of_not_lt hcap⟩⟩

theorem patchStream_next_or_stops {ro : DWord} {w : Word} (h : s.inputs = .patch ro w :: rest) :
    (∃ t, (s.setInputs rest).patchStream ro w = .next t) ∨
      StopsOnStreamAction s ((s.setInputs rest).patchStream ro w) := by
  rcases (s.setInputs rest).patchStream_cases ro w with ⟨-, heq⟩ | ⟨hstale, heq⟩
  · exact .inl ⟨_, heq⟩
  · exact .inr ⟨rest, .inr ⟨heq, ro, w, h, hstale⟩⟩

end

theorem stepIdle_next_or_stops (s : State) : (∃ t, stepIdle s = .next t) ∨ StopsOnStreamAction s (stepIdle s) := by
  unfold stepIdle
  split
  case h_7 h => exact hostStreamRead_next_or_stops h
  case h_8 h => exact hostStreamWrite_next_or_stops h
  case h_9 h => exact patchStream_next_or_stops h
  all_goals exact .inl ⟨_, rfl⟩

/-- R210: a window access waits under reset; the host's actions on its stream do as on an idle core. -/
theorem stepInReset_next_or_stops (s : State) :
    (∃ t, stepInReset s = .next t) ∨ StopsOnStreamAction s (stepInReset s) := by
  unfold stepInReset
  split
  case h_5 h => exact hostStreamRead_next_or_stops h
  case h_6 h => exact hostStreamWrite_next_or_stops h
  case h_7 h => exact patchStream_next_or_stops h
  case h_8 => split <;> exact .inl ⟨_, rfl⟩
  case h_9 => split <;> exact .inl ⟨_, rfl⟩
  all_goals exact .inl ⟨_, rfl⟩

/-- R62, R218: while a command is in flight the step completes it, or does what need not wait for it. -/
theorem stepBusy_next (w : Word) (s : State) : ∃ t, stepBusy w s = .next t := by
  have hcompletes (u : State) : ∃ t, completeCommand w u = .next t :=
    (completeCommand_answersNext w u).imp fun _ h => h.1
  unfold stepBusy
  split
  case h_3 => exact ⟨_, rfl⟩
  case h_4 => exact ⟨_, rfl⟩
  case h_5 =>
    split
    · exact ⟨_, rfl⟩
    · exact hcompletes _
  all_goals exact hcompletes _

theorem step_next_or_stops (s : State) :
    (∃ t, step s = .next t) ∨ ((s.inFlight = none ∨ s.resetHeld = true) ∧ StopsOnStreamAction s (step s)) := by
  cases hheld : s.resetHeld with
  | true =>
    rw [step_held hheld]
    exact (stepInReset_next_or_stops s).imp_right fun hstops => ⟨.inr rfl, hstops⟩
  | false =>
    cases hw : s.inFlight with
    | none =>
      rw [step_idle hheld hw]
      exact (stepIdle_next_or_stops s).imp_right fun hstops => ⟨.inl rfl, hstops⟩
    | some w =>
      rw [step_busy hheld hw]
      exact .inl (stepBusy_next w s)

theorem step_of_idle_streamRead {s : State} {a : DWord} {rest : List Input} (hidle : Idle s)
    (h : s.inputs = .streamRead a :: rest) (ha : a.toNat < s.cfg.streamCap) :
    step s = .next ((s.setInputs rest).reply (.stream a (s.streamByte a.toNat))) := by
  obtain ⟨hnone, hheld⟩ := hidle
  rw [step_idle hheld hnone, stepIdle, h]
  exact if_pos ha

end Sys2Proof.Machine

namespace Sys2Proof.Proofs

open Sys2Proof.Machine Sys2Proof.Spec

/-- Settles O22: an idle core and one held in reset stop on the same three actions, and a busy core on none; below STREAM_CAP the
host's access is a read or a write of one byte. -/
theorem stepStopsOnlyOnHostStreamAction : Obligations.StepStopsOnlyOnHostStreamAction := by
  unfold Obligations.StepStopsOnlyOnHostStreamAction
  refine ⟨step_next_or_stops, fun s a b rest hidle hcap => ⟨fun hin => ?_, fun hin => ?_⟩⟩
  · exact step_of_idle_streamRead hidle hin hcap
  · rw [step_of_idle_streamWrite hidle hin hcap, State.storeStream_eq]
    exact ⟨_, rfl, rfl, fun x => s.streamByte_write a.toNat x b⟩

end Sys2Proof.Proofs
end

section
/-! PROOFS. NOP (R170): the one word that spells it, and what a recorded error makes of it (R184). -/

namespace Sys2Proof.Machine

open Sys2Proof.Spec

theorem encode_nop : encode .nop = 0x00000000 := by decide

/-- R85, R86: the mask of NOP's row is all ones, so with OP 0x00 any other word is one whose reserved bits are not 0. -/
theorem decode_of_op_zero {w : Word} (hop : w.extractLsb' 0 8 = 0) (hne : w ≠ 0) : decode w = .error .illReserved := by
  have hfield : (opField w).toNat = 0x00 := congrArg BitVec.toNat hop
  have hrow : decode w = decodeRow w 0xFFFFFFFF 0x00000000 .nop := by simp only [decode, hfield]
  have hspells : spells w 0xFFFFFFFF 0x00000000 = false := by
    rw [spells, show w &&& 0xFFFFFFFF = w from BitVec.and_allOnes]
    exact beq_false_of_ne hne
  rw [hrow, decodeRow, hspells]
  rfl

/-- R184: whatever the word put in flight, an error recorded has it skipped. -/
theorem step_withFetchWord_of_error {s : State} (w : Nat) (h : s.status.err ≠ 0) :
    step (s.withFetchWord 32 w) = .next
      { s with inFlight := none, resetHeld := false, commanded := true, status := { s.status with skip := true } } := by
  have hstate : ((s.withFetchWord 32 w).setInputs s.inputs).setInFlight none =
      { s with inFlight := none, resetHeld := false, commanded := true } := rfl
  have herr : ((s.withFetchWord 32 w).setInputs s.inputs).status.err ≠ 0 := h
  rw [step_of_completes (withFetchWord_completes s w), completeCommand_of_error herr, hstate]
  rfl

end Sys2Proof.Machine

namespace Sys2Proof.Proofs

open Sys2Proof.Machine Sys2Proof.Spec

/-- Settles O27: the word is NOP's encoding; NOP's mask lets no other word through; under an error the word in flight is
skipped. -/
theorem nopChangesNothing : Obligations.NopChangesNothing := by
  unfold Obligations.NopChangesNothing
  refine ⟨?_, fun s => rfl, fun w => decode_of_op_zero, fun s herr => ?_⟩
  · exact encode_nop ▸ spelledOnlyBy_encode .nop
  · exact step_withFetchWord_of_error 0 herr

end Sys2Proof.Proofs
end

section
/-! PROOFS. Attaching a stream (R174): the bytes, then SLEN, SCAP and CURSOR, one action a step. -/

namespace Sys2Proof.Machine

open Sys2Proof.Spec

theorem run_add_of_run {m : Nat} (k : Nat) {s t : State} (h : Host.Core.run Sys2Proof.core m s = .next t) :
    Host.Core.run Sys2Proof.core (m + k) s = Host.Core.run Sys2Proof.core k t := by
  induction m generalizing s with
  | zero => cases h; rw [Nat.zero_add]
  | succ m ih =>
    rw [Nat.succ_add]
    simp only [Host.Core.run] at h ⊢
    split at h
    · exact ih h
    · cases h
    · cases h

/-- R29: SCAP reads as the four low bits of what the host has written. -/
theorem Scap.word_ofWord (w : Word) : (Scap.ofWord w).word = w &&& 15#32 := by
  refine BitVec.eq_of_getLsbD_eq fun i hi => ?_
  simp only [Scap.word, Scap.ofWord]
  interval_cases i <;> simp

theorem Scap.toNat_word_ofWord_setWidth (v : DWord) : (Scap.ofWord (v.setWidth 32)).word.toNat = v.toNat % 16 := by
  rw [Scap.word_ofWord, BitVec.toNat_and, BitVec.toNat_setWidth]
  exact (Nat.and_two_pow_sub_one_eq_mod _ 4).trans (Nat.mod_mod_of_dvd _ (by decide))

/-- The bytes written last are the bytes read. -/
theorem State.streamBytes_of_stream_eq_writeBytes {s : State} {m : Memory} {a : Nat} {bs : List Byte}
    (h : s.stream = m.writeBytes a bs) : s.streamBytes a bs.length = bs := by
  refine List.ext_getElem (State.length_streamBytes ..) fun k _ hk => ?_
  rw [State.getElem_streamBytes, State.streamByte, h, Memory.lookup_writeBytes_inside _ _ _ _ hk, Option.getD_some]

/-- R174: the three writes that follow the bytes, each in one step. -/
theorem run_attachRegisters {s : State} {len caps cur : DWord} (hidle : Idle s)
    (hin : s.inputs = [.windowWrite 0x20 len, .windowWrite 0x28 caps, .windowWrite 0x18 cur]) :
    Host.Core.run Sys2Proof.core 3 s = .next { s with
      inputs := []
      slen := len
      scap := Scap.ofWord (caps.setWidth 32)
      cursor := cur
      derivations := if len = s.slen then s.derivations else [] } := by
  have hslen := (step_of_idle_windowWrite hidle hin).trans (congrArg _ (State.writeSlen_eq _ len))
  have hscap := step_of_idle_windowWrite (s := { s with
    inputs := [.windowWrite 0x28 caps, .windowWrite 0x18 cur]
    slen := len
    derivations := if len = s.slen then s.derivations else [] }) hidle rfl
  have hcursor := step_of_idle_windowWrite (s := { s with
    inputs := [.windowWrite 0x18 cur]
    slen := len
    scap := Scap.ofWord (caps.setWidth 32)
    derivations := if len = s.slen then s.derivations else [] }) hidle rfl
  exact (run_succ_of_step 2 hslen).trans ((run_succ_of_step 1 hscap).trans (run_succ_of_step 0 hcursor))

end Sys2Proof.Machine

namespace Sys2Proof.Proofs

open Sys2Proof.Machine Sys2Proof.Spec

/-- Settles O59: the bytes are written one a step, then SLEN, SCAP and CURSOR; the bytes 0 .. n-1 read back as written. -/
theorem attachedStreamIsTheBytes : Obligations.AttachedStreamIsTheBytes := by
  unfold Obligations.AttachedStreamIsTheBytes
  intro s bytes caps cur hcfg hidle hcap hin
  have hlen : (BitVec.ofNat 64 bytes.length).toNat = bytes.length := toNat_ofNat_of_lt (by have := hcfg.2; omega)
  have hbytes := run_placeBytes bytes hidle hcfg (by rwa [Nat.zero_add]) hin
  refine ⟨_, (run_add_of_run 3 hbytes).trans (run_attachRegisters hidle rfl), ?_, hlen,
    Scap.toNat_word_ofWord_setWidth caps, rfl, rfl, rfl, rfl, hidle, rfl⟩
  rw [State.streamContents, hlen]
  exact State.streamBytes_of_stream_eq_writeBytes rfl

end Sys2Proof.Proofs
end

section
/-! PROOFS. Errors (R183, R184, R187): how a command that fails ends, said once for all commands, then for the word in
flight. -/

namespace Sys2Proof.Machine

open Sys2Proof.Spec

/-! There is always a magic delta. -/

/-- R124: the loop reads 64 bits of its exponent. -/
theorem powmod_mod_two_pow_64 (x y : Nat) : powmod x y = powmod x (y % 2 ^ 64) :=
  eq_powmod (powmod_reduced x y) (Nat.mod_lt _ (by decide)) (residue_powSteps x y 64).1

/-- R152, for every count: on a platform that R7 rules out, DERIVE's can exceed 64 bits. -/
theorem magicOf_ne_none (cur des : Word) (tb : Nat) : magicOf cur des tb ≠ none := by
  obtain ⟨m, hm⟩ := exists_magicOf_eq_some cur des (Nat.mod_lt tb (Nat.two_pow_pos 64))
  have hsome : magicOf cur des tb = some m := by rw [magicOf, powmod_mod_two_pow_64]; exact hm
  exact hsome ▸ Option.some_ne_none m

/-! What an error leaves. -/

/-- The registers that R183 speaks of, and the marks of the written ones. -/
structure Registers where
  p       : Vector DWord 8
  written : Vector Bool 8
  crcreg  : Word
  cursor  : DWord
  status  : Status

def State.registers (s : State) : Registers :=
  { p := s.p, written := s.written, crcreg := s.crcreg, cursor := s.cursor, status := s.status }

/-- R183: the error is recorded, and no other register is written. -/
def Registers.raise (r : Registers) (op : BitVec 8) (c : Cause) : Registers := { r with status := r.status.record op c }

theorem State.raise_registers (s : State) (op : BitVec 8) (c : Cause) : (s.raise op c).registers = s.registers.raise op c :=
  rfl

theorem State.deriveIssued_registers (s : State) (rs1 rs2 : Reg) : (s.deriveIssued rs1 rs2).registers = s.registers := by
  rw [State.deriveIssued_eq]; rfl

theorem State.appended_registers (s : State) : s.appended.registers = s.registers := rfl

/-! The ends of a command. -/

/-- STATUS is as it was, or one of the command's own causes (R187) was raised. -/
def KeepsStatusOrRaises (i : Instr) (s t : State) : Prop :=
  t.registers.status = s.registers.status ∨ ∃ c ∈ causesOf i, t.registers = s.registers.raise i.opcode c

theorem KeepsStatusOrRaises.of_registers_eq {i : Instr} {s u t : State} (h : KeepsStatusOrRaises i u t)
    (hu : u.registers = s.registers) : KeepsStatusOrRaises i s t := by
  rwa [KeepsStatusOrRaises, ← hu]

/-- R187: the causes of DERIVE's checks. -/
theorem mem_causesOf_derive {off : Int} {s : State} {c : Cause} (h : deriveCheck off s = .error c) (rd rx rs1 rs2 : Reg) :
    c ∈ causesOf (.derive rd rx rs1 rs2) := by
  rcases deriveFirstError_cases s off with ⟨c', hfirst, hcheck⟩ | ⟨-, mode, hcheck⟩ <;> cases hcheck.symm.trans h
  obtain ⟨check, hfind, rfl⟩ := Option.map_eq_some_iff.1 hfirst
  have hmem := List.mem_map_of_mem (f := Prod.snd) (List.mem_of_find?_eq_some hfind)
  exact List.mem_append_left [.ioPort] hmem

theorem ioPort_mem_causesOf_derive (rd rx rs1 rs2 : Reg) : .ioPort ∈ causesOf (.derive rd rx rs1 rs2) := by simp [causesOf]

/-- R152, R153: past the checks and the append only a read of the stream can fail. -/
theorem deriveFrom_keepsStatusOrRaises (rd rx rs1 rs2 : Reg) (des : Word) (ro : Nat) (s : State) :
    KeepsStatusOrRaises (.derive rd rx rs1 rs2) s (deriveFrom 0x31 rd rx des ro s) := by
  rcases deriveFrom_cases 0x31 rd rx des ro s with ⟨-, heq⟩ | ⟨r, -, ⟨hnone, -⟩ | ⟨m, -, heq⟩⟩
  · exact .inr ⟨.ioPort, ioPort_mem_causesOf_derive .., heq ▸ s.raise_registers ..⟩
  · exact absurd hnone (magicOf_ne_none _ _ _)
  · exact .inl (heq ▸ rfl)

theorem execDerive_keepsStatusOrRaises {rd rx rs1 rs2 : Reg} {s t : State} (h : execDerive rd rx rs1 rs2 s = .next t) :
    KeepsStatusOrRaises (.derive rd rx rs1 rs2) s t := by
  refine KeepsStatusOrRaises.of_registers_eq ?_ (s.deriveIssued_registers rs1 rs2)
  rcases execDerive_cases rd rx rs1 rs2 s with
    ⟨c, hcheck, heq⟩ | ⟨ro, -, heq⟩ | ⟨-, -, heq⟩ | ⟨-, -, heq⟩ <;> cases heq.symm.trans h
  · exact .inr ⟨c, mem_causesOf_derive hcheck .., State.raise_registers ..⟩
  · exact deriveFrom_keepsStatusOrRaises ..
  · exact .inr ⟨.ioPort, ioPort_mem_causesOf_derive .., State.raise_registers ..⟩
  · exact (deriveFrom_keepsStatusOrRaises ..).of_registers_eq (State.appended_registers _)

theorem exec_keepsStatusOrRaises {i : Instr} {s t : State} (h : exec i s = .next t) : KeepsStatusOrRaises i s t := by
  cases i with
  | crcstrm rd =>
    rcases execCrcstrm_cases rd s with ⟨c, hc, heq⟩ | ⟨r, -, -, heq⟩ <;> cases heq.symm.trans h
    · exact .inr ⟨c, by simpa [causesOf] using hc, s.raise_registers ..⟩
    · exact .inl rfl
  | divrem rd rx rs1 rs2 =>
    rcases execDivrem_cases rd rx rs1 rs2 s with ⟨-, heq⟩ | ⟨-, heq⟩ <;> cases heq.symm.trans h
    · exact .inr ⟨.ariDiv0, by simp [causesOf], State.raise_registers ..⟩
    · exact .inl rfl
  | recip rd rs1 =>
    rcases execRecip_cases rd rs1 s with ⟨-, heq⟩ | ⟨v, -, heq⟩ <;> cases heq.symm.trans h
    · exact .inr ⟨.ariNorecip, by simp [causesOf], State.raise_registers ..⟩
    · exact .inl rfl
  | delta rd rs1 rs2 rx =>
    rcases execDelta_cases rd rs1 rs2 rx s with ⟨hnone, -⟩ | ⟨m, -, heq⟩
    · exact absurd hnone (magicOf_ne_none _ _ _)
    · cases heq.symm.trans h; exact .inl rfl
  | derive rd rx rs1 rs2 => exact execDerive_keepsStatusOrRaises h
  | _ => cases h; exact .inl rfl

/-- R183, R187: a command that turns a clear STATUS.ERR into an error has raised one of its causes. -/
theorem exec_raises {i : Instr} {s t : State} (hs : s.status.err = 0) (h : exec i s = .next t) (ht : t.status.err ≠ 0) :
    ∃ c ∈ causesOf i, t.registers = s.registers.raise i.opcode c := by
  rcases exec_keepsStatusOrRaises h with hkeeps | hraises
  · exact absurd ((congrArg Status.err hkeeps).trans hs) ht
  · exact hraises

/-! The word in flight. -/

/-- R87, R183: a word that is rejected or fails raises its error under its bits 7:0. -/
theorem completeCommand_raises {w : Word} {s t : State} (hs : s.status.err = 0) (h : completeCommand w s = .next t)
    (ht : t.status.err ≠ 0) : ∃ c, t.registers = s.registers.raise (opField w) c := by
  rcases completeCommand_cases w s with ⟨herr, -⟩ | ⟨-, -, heq⟩ | ⟨-, -, heq⟩ | ⟨i, -, hdecode, heq⟩
  · exact absurd hs herr
  · cases heq.symm.trans h; exact ⟨.illOpcode, State.raise_registers ..⟩
  · cases heq.symm.trans h; exact ⟨.illReserved, State.raise_registers ..⟩
  · obtain ⟨c, -, hraises⟩ := exec_raises (s := s.setInFlight none) hs (heq.symm.trans h) ht
    exact ⟨c, opField_of_decode hdecode ▸ hraises⟩

/-- R54: only the word of a DERIVE in append mode writes the stream. -/
theorem completeCommand_keepsStream {w : Word} {s t : State} (h : completeCommand w s = .next t)
    (happend : ∀ i, decode w = .ok i → ¬AppendsFrom i s) : t.slen = s.slen ∧ t.stream = s.stream := by
  rcases completeCommand_cases w s with ⟨-, heq⟩ | ⟨-, -, heq⟩ | ⟨-, -, heq⟩ | ⟨i, -, hdecode, heq⟩
  · cases heq.symm.trans h; exact ⟨rfl, rfl⟩
  · cases heq.symm.trans h; exact ⟨rfl, rfl⟩
  · cases heq.symm.trans h; exact ⟨rfl, rfl⟩
  · exact (exec_writesWithin (heq.symm.trans h)).stream (happend i hdecode)

theorem completeCommand_boundary {w : Word} {s t : State} (h : completeCommand w s = .next t) :
    t.boundary = (s.setInFlight none).boundary := by
  obtain ⟨u, hu, hboundary⟩ := completeCommand_answersNext w s
  cases hu.symm.trans h
  exact hboundary

end Sys2Proof.Machine

namespace Sys2Proof.Proofs

open Sys2Proof.Machine Sys2Proof.Spec

/-- Settles O9: whatever the word, its completion skips it. -/
theorem errorsAreSticky : Obligations.ErrorsAreSticky := by
  unfold Obligations.ErrorsAreSticky
  intro s w rest hc herr
  have hskip := completeCommand_of_error (w := w) (s := s.setInputs rest) herr
  exact ⟨_, (step_of_completes hc).trans hskip, rfl, rfl, rfl, rfl, rfl⟩

/-- Settles O11: the error is all that the registers show of the word, no command moves SCAP or what is in flight, and only a
DERIVE in append mode moves the stream. -/
theorem raisingAnErrorIsPrecise : Obligations.RaisingAnErrorIsPrecise := by
  unfold Obligations.RaisingAnErrorIsPrecise
  intro s t w rest hc hs h ht
  rw [step_of_completes hc] at h
  obtain ⟨c, hraises⟩ := completeCommand_raises (s := s.setInputs rest) hs h ht
  have hboundary := completeCommand_boundary h
  have hstatus : t.status = s.status.record (opField w) c := congrArg Registers.status hraises
  refine ⟨⟨c, congrArg Status.err hstatus, congrArg Status.cause hstatus⟩, congrArg Status.errop hstatus,
    by rw [hstatus, Status.record_skip], congrArg Boundary.inFlight hboundary, congrArg Registers.p hraises,
    congrArg Registers.written hraises, congrArg Registers.crcreg hraises, congrArg Registers.cursor hraises,
    congrArg Boundary.scap hboundary, fun hplace => ?_⟩
  obtain ⟨hslen, hbytes⟩ : t.slen = s.slen ∧ t.stream = s.stream := by
    refine completeCommand_keepsStream (s := s.setInputs rest) h ?_
    rintro i hdecode ⟨rd, rx, rs1, rs2, rfl, hoff⟩
    exact hplace rd rx rs1 rs2 hdecode hoff
  exact ⟨hslen, State.streamByte_congr hbytes⟩

/-- Settles O12: the end of every command is known, and one that leaves STATUS alone records no error. -/
theorem commandsRaiseOnlyTheirCauses : Obligations.CommandsRaiseOnlyTheirCauses := by
  unfold Obligations.CommandsRaiseOnlyTheirCauses
  intro i s t hs h ht
  obtain ⟨c, hc, hraises⟩ := exec_raises hs h ht
  have hstatus : t.status = s.status.record i.opcode c := congrArg Registers.status hraises
  exact ⟨c, hc, by rw [hstatus]; exact ⟨rfl, rfl, rfl⟩⟩

end Sys2Proof.Proofs
end

section
/-! PROOFS. Totality (R218, R17): every command answers, on every state. -/

namespace Sys2Proof.Proofs

open Sys2Proof.Machine Sys2Proof.Spec

/-- Settles O23: a command answers, and its boundary is that of the state it ran on. -/
theorem everyCommandAnswersNext : Obligations.EveryCommandAnswersNext := by
  unfold Obligations.EveryCommandAnswersNext
  intro i s
  obtain ⟨t, h, hboundary⟩ := exec_answersNext i s
  exact ⟨t, h, congrArg Boundary.cfg hboundary, congrArg Boundary.scap hboundary, congrArg Boundary.resetHeld hboundary,
    congrArg Boundary.inFlight hboundary, congrArg Boundary.inputs hboundary, congrArg Boundary.replies hboundary,
    congrArg Boundary.commanded hboundary⟩

end Sys2Proof.Proofs
end

section
/-! PROOFS. Asserting reset (R211 to R213): the same step whether a command is in flight or not, what the abandoned command
counts as having read, and which stream bytes can move. -/

namespace Sys2Proof.Machine

open Sys2Proof.Spec

/-- R210: reset can be asserted at any time, busy or idle. -/
theorem step_of_assertReset {s : State} {rest : List Input} (hheld : s.resetHeld = false)
    (hin : s.inputs = .assertReset :: rest) : step s = .next (s.setInputs rest).assertReset := by
  cases hw : s.inFlight with
  | none => exact step_of_idle_assertReset ⟨hw, hheld⟩ hin
  | some w => rw [step_busy hheld hw, stepBusy, hin]

theorem State.assertReset_registersReset (s : State) : s.assertReset.RegistersReset := ⟨rfl, rfl, rfl, rfl, rfl, rfl⟩

/-! The mark of an unwritten read. -/

/-- R16: the operands of the command in flight, if its word is one that would run. -/
theorem State.mem_readsInFlight {s : State} {q : Reg} :
    q ∈ s.readsInFlight ↔ ∃ i, s.executing = some i ∧ q ∈ i.sources := by
  unfold State.readsInFlight
  cases s.executing <;> simp

/-- R23, log entry 2: the abandoned command counts as having read its operands. -/
theorem State.uninitRead_assertReset {s : State} :
    s.assertReset.uninitRead = true ↔ s.uninitRead = true ∨ ∃ w i, s.inFlight = some w ∧ s.status.err = 0 ∧
      decode w = .ok i ∧ ∃ q ∈ i.sources, s.written[q.val] = false := by
  have hmark : s.assertReset.uninitRead = true ↔
      s.uninitRead = true ∨ ∃ q ∈ s.readsInFlight, s.written[q.val] = false := by simp [State.assertReset]
  simp only [hmark, State.mem_readsInFlight, State.executing_eq_some]
  refine or_congr_right ⟨?_, ?_⟩
  · rintro ⟨q, ⟨i, ⟨w, hw, herr, hdecode⟩, hq⟩, hunwritten⟩
    exact ⟨w, i, hw, herr, hdecode, q, hq, hunwritten⟩
  · rintro ⟨w, i, hw, herr, hdecode, q, hq, hunwritten⟩
    exact ⟨q, ⟨i, ⟨w, hw, herr, hdecode⟩, hq⟩, hunwritten⟩

/-! The stream. -/

/-- R154, R212, log entry 11: only a DERIVE whose offset is −1, or not written, can be cut short. -/
theorem State.derive_of_appendInFlight {s : State} (h : s.appendInFlight = true) :
    ∃ w rd rx rs1 rs2, s.inFlight = some w ∧ decode w = .ok (.derive rd rx rs1 rs2) ∧
      ¬(s.offsetOperand rs2 ≠ -1 ∧ s.written[rs2.val] = true) := by
  unfold State.appendInFlight at h
  split at h
  next rd rx rs1 rs2 hexecuting =>
    obtain ⟨w, hw, -, hdecode⟩ := State.executing_eq_some.1 hexecuting
    refine ⟨w, rd, rx, rs1, rs2, hw, hdecode, fun ⟨hoff, hwritten⟩ => ?_⟩
    simp [hoff, hwritten] at h
  next => cases h

theorem State.assertReset_stream_of_append {s : State} (h : s.appendInFlight = true) :
    s.assertReset.stream = s.stream.writeBytes s.slen.toNat
      ((anyFourBytes s.draws).take (s.cfg.streamCap - s.slen.toNat)) := by
  simp [State.assertReset, State.cutAppend, h]

theorem State.assertReset_stream_of_no_append {s : State} (h : s.appendInFlight = false) :
    s.assertReset.stream = s.stream := by
  simp [State.assertReset, h]

/-- R212, R213: the burst that was cut short has four bytes. -/
theorem State.streamByte_assertReset_outside {s : State} {a : Nat} (ha : a < s.slen.toNat ∨ s.slen.toNat + 4 ≤ a) :
    s.assertReset.streamByte a = s.streamByte a := by
  cases h : s.appendInFlight with
  | false => exact State.streamByte_congr (State.assertReset_stream_of_no_append h) a
  | true =>
    have hlen := List.length_take_le' (s.cfg.streamCap - s.slen.toNat) (anyFourBytes s.draws)
    rw [show (anyFourBytes s.draws).length = 4 from rfl] at hlen
    rw [State.streamByte, State.assertReset_stream_of_append h, Memory.lookup_writeBytes_outside _ _ _ _ (by omega)]
    rfl

end Sys2Proof.Machine

namespace Sys2Proof.Proofs

open Sys2Proof.Machine Sys2Proof.Spec

/-- Settles O18: the step is the same busy or idle; the mark depends on the operands of the word in flight, and the stream moves
only if that word is a DERIVE that can append. -/
theorem assertingReset : Obligations.AssertingReset := by
  unfold Obligations.AssertingReset
  intro s rest hheld hin
  refine ⟨_, step_of_assertReset hheld hin, State.assertReset_registersReset _, rfl, rfl, rfl, rfl, rfl, rfl, rfl,
    State.uninitRead_assertReset (s := s.setInputs rest),
    fun a => State.streamByte_assertReset_outside (s := s.setInputs rest), fun hplace => ?_⟩
  refine State.assertReset_stream_of_no_append (s := s.setInputs rest) (Bool.eq_false_iff.2 fun happend => ?_)
  obtain ⟨w, rd, rx, rs1, rs2, hw, hdecode, hcut⟩ := State.derive_of_appendInFlight happend
  exact hcut (hplace w rd rx rs1 rs2 hw hdecode)

end Sys2Proof.Proofs
end

section
/-! PROOFS. The window while reset is held (R210): an access waits, and lets the release that is to come pass it. -/

namespace Sys2Proof.Machine

open Sys2Proof.Spec

/-- An access that waits has a release to wait for only if one is among the actions to come. -/
theorem releaseReset_mem_of_inputsAfterRelease {rest l : List Input} (h : inputsAfterRelease rest = some l) :
    .releaseReset ∈ rest := by
  fun_induction inputsAfterRelease rest generalizing l with
  | case1 => cases h
  | case2 rest => exact List.mem_cons_self
  | case3 rest ih => exact List.mem_cons_of_mem _ (ih h)
  | case4 a rest _ _ ih =>
    obtain ⟨l', hl', -⟩ := Option.map_eq_some_iff.1 h
    exact List.mem_cons_of_mem _ (ih hl')

/-- R210, log entry 6: a window access stays to come, for good or past the release. -/
theorem stepInReset_of_windowAccess {s : State} {a : Input} {rest : List Input} (hin : s.inputs = a :: rest)
    (ha : isWindowAccess a = true) :
    stepInReset s = (inputsAfterRelease rest).elim (.next s) fun l =>
      .next ((s.setInputs (a :: l)).setResetHeld false) := by
  cases a with
  | windowRead off => simp only [stepInReset, hin]; cases inputsAfterRelease rest <;> rfl
  | windowWrite off v => simp only [stepInReset, hin]; cases inputsAfterRelease rest <;> rfl
  | _ => cases ha

theorem step_of_held_releaseReset {s : State} {rest : List Input} (hheld : s.resetHeld = true)
    (hin : s.inputs = .releaseReset :: rest) : step s = .next ((s.setInputs rest).setResetHeld false) := by
  rw [step_held hheld, stepInReset, hin]

end Sys2Proof.Machine

namespace Sys2Proof.Proofs

open Sys2Proof.Machine Sys2Proof.Spec

/-- Settles O19: a step with a window access to come does nothing, or takes the release out from behind the access. -/
theorem windowWaitsForRelease : Obligations.WindowWaitsForRelease := by
  unfold Obligations.WindowWaitsForRelease
  refine ⟨fun s t a rest hheld hin ha h => ?_, fun s rest hheld hin => step_of_held_releaseReset hheld hin⟩
  rw [step_held hheld, stepInReset_of_windowAccess hin ha] at h
  cases hafter : inputsAfterRelease rest with
  | none =>
    rw [hafter] at h; cases h
    exact ⟨⟨rest, hin⟩, rfl, fun hreleased => absurd (hheld.symm.trans hreleased) (by decide)⟩
  | some l =>
    rw [hafter] at h; cases h
    exact ⟨⟨l, rfl⟩, rfl, fun _ => releaseReset_mem_of_inputsAfterRelease hafter⟩

end Sys2Proof.Proofs
end
